-- ==== Sys2Proof/Word.lean ====
section
/-! DEFINITION. The word types of CGCORE: bytes and the fields of a frame (spec 10_state.md R11, 30_encoding.md R61). -/

namespace Sys2Proof

/-- Eight bits: a payload byte, a byte of either memory. -/
abbrev Byte := BitVec 8

/-- The command code: identifier bits 28:17, all twelve of them (R12, D1). -/
abbrev Command := BitVec 12

/-- The 16-bit compact identity of a node: identifier bits 15:0. -/
abbrev Hash := BitVec 16

/-- The 32-bit identity of a node (R14). -/
abbrev Uid := BitVec 32

/-- The 29-bit extended identifier (R60). -/
abbrev WireId := BitVec 29

end Sys2Proof
end

