-- ==== Sys2Proof/Config.lean ====
section
/-! DEFINITION. What one implementation fixes (the parameters of spec 00_scope.md R6) and the free values, which have no body. -/

namespace Sys2Proof

/-- The parameters of R6, one field each under the spec's own name. `CFG_PARAM_COUNT` and `CFG_FRAME_COUNT[i]` are the lengths of
`cfgTable` and of its entry `i`, so they are not stored a second time. A record of this type rides in `State` and no step writes it
(DESIGN CHOICE, log 1): a statement about every state holds for every value of every parameter. -/
structure Params where
  /-- `BASE_UID_APP` -/
  baseUidApp : Uid
  /-- `BASE_UID_BL` -/
  baseUidBl : Uid
  /-- `FW_VERSION_MAJOR` -/
  fwVersionMajor : Byte
  /-- `FW_VERSION_MINOR` -/
  fwVersionMinor : Byte
  /-- `DEVICE_TYPE` -/
  deviceType : BitVec 16
  /-- `PAGE_SIZE` -/
  pageSize : Nat
  /-- `NUM_PAGES` -/
  numPages : Nat
  /-- `FLASH_APP_BASE` -/
  flashAppBase : Nat
  /-- `NV_ADDR_HI_OFFSET` -/
  nvAddrHiOffset : Nat
  /-- `NV_ADDR_LO_OFFSET` -/
  nvAddrLoOffset : Nat
  /-- `HAS_SETUP_FLAG` -/
  hasSetupFlag : Bool
  /-- `NV_SETUP_FLAG_OFFSET` -/
  nvSetupFlagOffset : Nat
  /-- `SETUP_NOT_DONE_VALUE` -/
  setupNotDoneValue : Byte
  /-- `CFG_TABLE`: for each index, its descriptor frames in declared order, each a list of eight bytes. -/
  cfgTable : List (List (List Byte))
  /-- `TIMEOUT_EN` -/
  timeoutEn : Bool
  /-- `CHUNK_CURSOR_START`, 0 or 1 -/
  chunkCursorStart : Fin 2
  /-- `AGENT_CHUNK` -/
  agentChunk : Nat
deriving DecidableEq, Repr

/-- `CFG_PARAM_COUNT` (R6). -/
def Params.cfgParamCount (p : Params) : Nat := p.cfgTable.length

/-- R6's column "value in examples", which 95_test_vectors.md uses and which "binds nothing" (DESIGN CHOICE, log 1: the value
`State.reset` carries). -/
def Params.examples : Params where
  baseUidApp := 0x50091900
  baseUidBl := 0x50091900
  fwVersionMajor := 0x01
  fwVersionMinor := 0x02
  deviceType := 0x0053
  pageSize := 8
  numPages := 4
  flashAppBase := 0
  nvAddrHiOffset := 0
  nvAddrLoOffset := 1
  hasSetupFlag := false
  nvSetupFlagOffset := 2
  setupNotDoneValue := 0x00
  cfgTable := [[[0x00, 0x01, 0x00, 0x00, 0x00, 0x00, 0x00, 0x05], [0x41, 0x64, 0x64, 0x72, 0x00, 0x00, 0x00, 0x00]]]
  timeoutEn := false
  chunkCursorStart := 1
  agentChunk := 6

/-- Free values for the registers a rule leaves unspecified (R23, R26, R150, R170; log 5): the value of element `k` of register
number `reg` at draw number `draw`. -/
opaque Config.freeValue : (draw reg k : Nat) → Nat

/-- `GEN_UID` on address bytes that are not both ASCII digits (R101 gives it no value; U1 "any value"; log 6). -/
opaque Config.uidOfNonDigits : Uid → Byte → Byte → Uid

/-- `CFG_FRAME_COUNT[i]` for an index without a table (R6 defines it below `CFG_PARAM_COUNT` only; log 24). -/
opaque Config.strayFrameCount : Nat → Nat

/-- Byte `j` of row `k` of the table of an index without one (log 24). -/
opaque Config.strayTableByte : (i k j : Nat) → Byte

/-- The payload of `DATA_FRAME(d)` for a number of bytes R194 gives no payload for, by `CHUNK_CURSOR_START` and `d` (log 30). -/
opaque Config.unstatedDataPayload : (start : Nat) → (d : List Byte) → List Byte

/-- A byte read outside `localChunk[0..6]`, at the position the read computes (log 25). -/
opaque Config.strayChunkByte : Int → Byte

end Sys2Proof
end

