-- ==== Sys2Proof/Syntax.lean ====
section
/-! DEFINITION. The instructions of CGCORE: one constructor for every row of spec/opcode_table.json. An instruction of this block is a
CAN frame (inbound or outbound), an internal step, or a function (spec 30_encoding.md, 00_scope.md R8). -/

namespace Sys2Proof

/-- The logical frame (10_state.md R11). `length` is the number of payload bytes and `payload[i]` exists for `i < length` only (R13),
so the payload is the list of the bytes there are (log 11). -/
structure CanFrame where
  command : Command
  responseFlag : Bool
  hash : Hash
  payload : List Byte
deriving DecidableEq, Repr

/-- The frame as the transceiver hands it over (60_exceptions.md R215): identifier, extended flag, `length` payload bytes. -/
structure WireFrame where
  id : WireId
  ext : Bool
  payload : List Byte
deriving DecidableEq, Repr

/-- The two digits of a board address: `hi` is `address[0]`, `lo` is `address[1]` (R16, D3). -/
structure Address where
  hi : Byte
  lo : Byte
deriving DecidableEq, Repr

/-- The four identity bytes `uidBytes[0..3]` (R14). -/
structure UidBytes where
  b0 : Byte
  b1 : Byte
  b2 : Byte
  b3 : Byte
deriving DecidableEq, Repr

/-- What `AG_BUILD_REQUEST(X, Y)` can be asked to build (46_update_agent.md R197): a sub-command and the board it is for. -/
inductive AppRequest where
  | boardnumRequest (board : Address)
  | goBtldr (board : Address)
  | boardnumChange (board new : Address)
deriving DecidableEq, Repr

/-- The bits that `AGENT.END_FRAME` leaves free (R73): the sender's hash, and the bytes after byte 0, which nobody reads. -/
structure EndReply where
  hash : Hash
  rest : List Byte
deriving DecidableEq, Repr

/-- The instructions. A frame's operands are the bits its row does not fix: the sender's hash and the free payload bytes (`rest`: the
bytes after a fixed byte 0). A row without a bit pattern ("encoding": "none") carries the operands its rule gives it. -/
inductive Instr where
  -- inbound, Application mode (R76, first table; RX.STANDARD_FRAME in any mode)
  | rxStandardFrame (id : WireId) (payload : List Byte)
  | rxResponseDrop (command : Command) (hash : Hash) (payload : List Byte)
  | ping (hash : Hash) (payload : List Byte)
  | configStatus (hash : Hash) (payload : List Byte)
  | forAppBoardnumRequest (hash : Hash) (rest : List Byte)
  | forAppBoardnumChange (hash : Hash) (rest : List Byte)
  | forAppGoBtldr (hash : Hash) (rest : List Byte)
  | forAppNoHandler (hash : Hash) (payload : List Byte)
  | forBtldr (hash : Hash) (payload : List Byte)
  | hook (command : Command) (hash : Hash) (payload : List Byte)
  -- inbound, the bootloader's wait (R76, second table)
  | btldrAnswerData (hash : Hash) (rest : List Byte)
  | btldrAnswerEnd (hash : Hash) (rest : List Byte)
  | rxBlDiscard (frame : WireFrame)
  -- outbound frames of the block (R67 to R72)
  | pingReply (hash : Hash) (uid : UidBytes) (major minor : Byte) (deviceType : BitVec 16)
  | configStatusDescriptor (hash : Hash) (row : List Byte)
  | configStatusTerminator (hash : Hash) (index count : Byte)
  | appAnswerBoardnumAnswer (hash : Hash) (address : Address)
  | appAnswerBoardnumChange (hash : Hash) (address : Address)
  | appAnswerGoBtldr (hash : Hash) (address : Address)
  | btldrAnswerStartData (hash : Hash)
  | btldrAnswerMoreData (hash : Hash)
  -- outbound frames of the agent (R73, R197)
  | agentForAppRequest (hash : Hash) (request : AppRequest)
  | agentDataFrame (hash : Hash) (rest : List Byte)
  | agentEndFrame (reply : EndReply)
  -- internal steps and functions
  | encode (frame : CanFrame)
  | decode (id : WireId) (payload : List Byte)
  | genUid (baseUid : Uid) (address : Address)
  | serializeUid (uid : Uid)
  | genHash (uid : Uid)
  | identLoad (baseUid : Uid)
  | reset
  | rxDispatch
  | cfgDrain
  | cfgEmitStep
  | blEnter
  | blAnnounce
  | blRequest
  | blPoll
  | loadChunk
  | endOfData
  | blPull
  | blTimeout
  | blFinish
  | blHandoff
  | pageCommit
  | pageRangeStop
  | agStart
  | agServe
  | dataFrame (data : List Byte)
  | agBuildRequest (request : AppRequest)
  | agInterpret (frame : CanFrame) (board : Address)
deriving DecidableEq, Repr

end Sys2Proof
end

