-- ==== Sys2Proof/WellFormed.lean ====
section
/-! DEFINITION. Which terms are well formed: the codes of spec 30_encoding.md R63 and R64, the operand ranges of each instruction, and
the constraints on the parameters (00_scope.md R6, R7). -/

namespace Sys2Proof

/-! ## Command codes (R63) and sub-command codes (R64) -/

abbrev cmdPing : Command := 0x018
abbrev cmdConfigStatus : Command := 0x01D
abbrev cmdForBtldr : Command := 0x050
abbrev cmdBtldrAnswer : Command := 0x051
abbrev cmdForApp : Command := 0x052
abbrev cmdAppAnswer : Command := 0x053

abbrev subBoardnumRequest : Byte := 0
abbrev subBoardnumAnswer : Byte := 1
abbrev subBoardnumChange : Byte := 2
abbrev subGoBtldr : Byte := 3
abbrev subStartData : Byte := 4
abbrev subMoreData : Byte := 5
abbrev subEndData : Byte := 6

/-! ## Frames -/

/-- A frame has 0 to 8 payload bytes (R13, R60). -/
def CanFrame.wf (f : CanFrame) : Bool := decide (f.payload.length ≤ 8)

/-- A frame has 0 to 8 payload bytes (R13, R60). -/
def WireFrame.wf (w : WireFrame) : Bool := decide (w.payload.length ≤ 8)

/-- Does the frame match the receiver's wait (R76, second table)? Written on the identifier's bits, as the table writes it. -/
def WireFrame.answersWait (w : WireFrame) : Bool :=
  w.ext && w.id &&& 0x1FFF0000#29 == 0x00A20000#29 && (w.payload.head? == some subMoreData || w.payload.head? == some subEndData)

/-! ## Instructions -/

/-- The operands are ones the row's encoding admits. -/
def Instr.wf : Instr → Bool
  | .rxStandardFrame _ p => decide (p.length ≤ 8)
  | .rxResponseDrop _ _ p => decide (p.length ≤ 8)
  | .ping _ p => decide (p.length ≤ 8)
  | .configStatus _ p => decide (p.length ≤ 8)
  | .forAppBoardnumRequest _ r => decide (r.length ≤ 7)
  | .forAppBoardnumChange _ r => decide (r.length ≤ 7)
  | .forAppGoBtldr _ r => decide (r.length ≤ 7)
  | .forAppNoHandler _ p =>
      decide (p.length ≤ 8) && p.head? != some subBoardnumRequest && p.head? != some subBoardnumChange && p.head? != some subGoBtldr
  | .forBtldr _ p => decide (p.length ≤ 8)
  | .hook c _ p => decide (p.length ≤ 8) && c != cmdPing && c != cmdConfigStatus && c != cmdForApp && c != cmdForBtldr
  | .btldrAnswerData _ r => decide (r.length ≤ 7)
  | .btldrAnswerEnd _ r => decide (r.length ≤ 7)
  | .rxBlDiscard w => w.wf && !w.answersWait
  | .configStatusDescriptor _ row => decide (row.length = 8)
  | .agentDataFrame _ r => decide (r.length ≤ 7)
  | .agentEndFrame r => decide (r.rest.length ≤ 7)
  | .encode f => f.wf
  | .decode _ p => decide (p.length ≤ 8)
  | .dataFrame d => decide (1 ≤ d.length ∧ d.length ≤ 7)
  | .agInterpret f _ => f.wf
  | .pingReply _ _ _ _ _ | .configStatusTerminator _ _ _ | .appAnswerBoardnumAnswer _ _ | .appAnswerBoardnumChange _ _
  | .appAnswerGoBtldr _ _ | .btldrAnswerStartData _ | .btldrAnswerMoreData _ | .agentForAppRequest _ _
  | .genUid _ _ | .serializeUid _ | .genHash _ | .identLoad _ | .reset | .rxDispatch | .cfgDrain | .cfgEmitStep | .blEnter
  | .blAnnounce | .blRequest | .blPoll | .loadChunk | .endOfData | .blPull | .blTimeout | .blFinish | .blHandoff | .pageCommit
  | .pageRangeStop | .agStart | .agServe | .agBuildRequest _ => true

/-! ## Parameters -/

/-- The table's shape (R6): at most 255 indexes, at most 255 frames each, eight bytes a frame. -/
def Params.tableWf (p : Params) : Bool :=
  decide (p.cfgTable.length ≤ 255) && p.cfgTable.all fun t => decide (t.length ≤ 255) && t.all fun row => decide (row.length = 8)

/-- The constraints between parameters (R7) and the ranges R6 gives them. -/
def Params.wf (p : Params) : Bool :=
  decide (1 ≤ p.pageSize) && decide (1 ≤ p.numPages)
    && p.nvAddrHiOffset != p.nvAddrLoOffset && p.nvAddrHiOffset != p.nvSetupFlagOffset && p.nvAddrLoOffset != p.nvSetupFlagOffset
    && p.flashAppBase % p.pageSize == 0
    && p.tableWf
    && decide (1 ≤ p.agentChunk ∧ p.agentChunk + p.chunkCursorStart.val ≤ 7)

end Sys2Proof
end

