-- ==== Sys2Proof/Decode.lean ====
section
/-! DEFINITION. FrameCodec (spec 40_frame_codec.md), the decoder of frames into instructions (30_encoding.md R76) and the encoder. -/

namespace Sys2Proof

/-! ## ENCODE and DECODE -/

/-- `ENCODE` (R90): shift, or, overwrite of bit 16; the extended flag is always set; length and payload are carried over. -/
def encodeFrame (f : CanFrame) : WireFrame :=
  let packed : WireId := (f.command.setWidth 29 <<< 17) ||| f.hash.setWidth 29
  let marker : WireId := 1#29 <<< 16
  { id := if f.responseFlag then packed ||| marker else packed &&& ~~~marker
    ext := true
    payload := f.payload }

/-- `DECODE` (R92), total on every identifier: command 28:17, response flag 16, hash 15:0. -/
def decodeFrame (id : WireId) (payload : List Byte) : CanFrame where
  command := (id >>> 17).setWidth 12
  responseFlag := id.getLsbD 16
  hash := id.setWidth 16
  payload := payload

/-! ## Decoding a frame into its instruction -/

/-- Where a frame is met, which decides the rows that are tried (the "format" of a table row): `router` for the receive interrupt in
Application mode, `poll` for the bootloader's wait, `transmit` for frames the block sends, `agentTransmit` for frames the agent sends. -/
inductive Context where
  | router
  | poll
  | transmit
  | agentTransmit
deriving DecidableEq, Repr

/-- Why a frame is no instruction. -/
inductive DecodeError where
  /-- More than eight payload bytes: no CAN frame (R13, D39). -/
  | payloadTooLong
  /-- No outbound row of the block has this form. -/
  | noTransmitRow
  /-- No outbound row of the agent has this form. -/
  | noAgentRow
deriving DecidableEq, Repr

/-- The answer of the decoder. -/
inductive Decoded where
  | instr (i : Instr)
  | rejected (e : DecodeError)
deriving DecidableEq, Repr

/-- The instruction, if there is one. -/
def Decoded.toOption : Decoded → Option Instr
  | .instr i => some i
  | .rejected _ => none

/-- `FOR_APP` requests by payload byte 0 (R76, R77). -/
def decodeForApp (hash : Hash) (payload : List Byte) : Instr :=
  match payload with
  | [] => .forAppNoHandler hash []
  | b :: rest =>
    if b = subBoardnumRequest then .forAppBoardnumRequest hash rest
    else if b = subBoardnumChange then .forAppBoardnumChange hash rest
    else if b = subGoBtldr then .forAppGoBtldr hash rest
    else .forAppNoHandler hash (b :: rest)

/-- Application mode (R76, first table): extended flag, response flag, then the command on all twelve bits. -/
def decodeRouter (w : WireFrame) : Instr :=
  if w.ext = false then .rxStandardFrame w.id w.payload
  else
    let f := decodeFrame w.id w.payload
    if f.responseFlag then .rxResponseDrop f.command f.hash f.payload
    else if f.command = cmdPing then .ping f.hash f.payload
    else if f.command = cmdConfigStatus then .configStatus f.hash f.payload
    else if f.command = cmdForApp then decodeForApp f.hash f.payload
    else if f.command = cmdForBtldr then .forBtldr f.hash f.payload
    else .hook f.command f.hash f.payload

/-- The bootloader's wait (R76, second table): a matching `BTLDR_ANSWER` request, or anything else. -/
def decodePoll (w : WireFrame) : Instr :=
  let f := decodeFrame w.id w.payload
  if w.ext = true ∧ f.command = cmdBtldrAnswer ∧ f.responseFlag = false then
    match f.payload with
    | [] => .rxBlDiscard w
    | b :: rest =>
      if b = subMoreData then .btldrAnswerData f.hash rest
      else if b = subEndData then .btldrAnswerEnd f.hash rest
      else .rxBlDiscard w
  else .rxBlDiscard w

/-- Frames the block sends (R66 to R72): the header, the length and the fixed bytes of the row. -/
def decodeTransmit (w : WireFrame) : Option Instr :=
  let f := decodeFrame w.id w.payload
  if w.ext = true ∧ f.responseFlag = true then
    if f.command = cmdPing then
      match f.payload with
      | [b0, b1, b2, b3, major, minor, dh, dl] => some (.pingReply f.hash ⟨b0, b1, b2, b3⟩ major minor (dh ++ dl))
      | _ => none
    else if f.command = cmdConfigStatus then
      match f.payload with
      | [index, count] => some (.configStatusTerminator f.hash index count)
      | row => if row.length = 8 then some (.configStatusDescriptor f.hash row) else none
    else if f.command = cmdAppAnswer then
      match f.payload with
      | [b, hi, lo] =>
        if b = subBoardnumAnswer then some (.appAnswerBoardnumAnswer f.hash ⟨hi, lo⟩)
        else if b = subBoardnumChange then some (.appAnswerBoardnumChange f.hash ⟨hi, lo⟩)
        else if b = subGoBtldr then some (.appAnswerGoBtldr f.hash ⟨hi, lo⟩)
        else none
      | _ => none
    else if f.command = cmdBtldrAnswer then
      match f.payload with
      | [b] =>
        if b = subStartData then some (.btldrAnswerStartData f.hash)
        else if b = subMoreData then some (.btldrAnswerMoreData f.hash)
        else none
      | _ => none
    else none
  else none

/-- Frames the agent sends (R73, R197): a data frame and an end frame have any length from 1. -/
def decodeAgent (w : WireFrame) : Option Instr :=
  let f := decodeFrame w.id w.payload
  if w.ext = true ∧ f.responseFlag = false then
    if f.command = cmdForApp then
      match f.payload with
      | [x, y0, y1] =>
        if x = subBoardnumRequest then some (.agentForAppRequest f.hash (.boardnumRequest ⟨y0, y1⟩))
        else if x = subGoBtldr then some (.agentForAppRequest f.hash (.goBtldr ⟨y0, y1⟩))
        else none
      | [x, y0, y1, z0, z1] =>
        if x = subBoardnumChange then some (.agentForAppRequest f.hash (.boardnumChange ⟨y0, y1⟩ ⟨z0, z1⟩)) else none
      | _ => none
    else if f.command = cmdBtldrAnswer then
      match f.payload with
      | [] => none
      | b :: rest =>
        if b = subMoreData then some (.agentDataFrame f.hash rest)
        else if b = subEndData then some (.agentEndFrame ⟨f.hash, rest⟩)
        else none
    else none
  else none

/-- The decoder: total, on any frame in any context; what is no instruction is rejected by name. -/
def decode (c : Context) (w : WireFrame) : Decoded :=
  if 8 < w.payload.length then .rejected .payloadTooLong
  else match c with
    | .router => .instr (decodeRouter w)
    | .poll => .instr (decodePoll w)
    | .transmit => match decodeTransmit w with
      | some i => .instr i
      | none => .rejected .noTransmitRow
    | .agentTransmit => match decodeAgent w with
      | some i => .instr i
      | none => .rejected .noAgentRow

/-! ## The encoder -/

/-- The logical frame `Frame(cmd, R, h, [b0, b1, ...])` of R8. -/
abbrev mkFrame (command : Command) (responseFlag : Bool) (hash : Hash) (payload : List Byte) : CanFrame :=
  ⟨command, responseFlag, hash, payload⟩

/-- The identity bytes in payload order (R46, R67). -/
def UidBytes.toList (u : UidBytes) : List Byte := [u.b0, u.b1, u.b2, u.b3]

/-- The address digits in payload order: high digit first (R46). -/
def Address.toList (a : Address) : List Byte := [a.hi, a.lo]

/-! The payload layouts of outbound frames, all in one place (R66 to R73; decisions D7, D8, D11, D15, D21, D22, D24). -/

/-- `PING.REPLY` (R67): identity, version, device type high byte first. -/
def pingReplyFrame (h : Hash) (u : UidBytes) (major minor : Byte) (deviceType : BitVec 16) : CanFrame :=
  mkFrame cmdPing true h (u.toList ++ [major, minor, deviceType.extractLsb' 8 8, deviceType.extractLsb' 0 8])

/-- `CONFIG_STATUS.DESCRIPTOR` (R69): one row of the table. -/
def descriptorFrame (h : Hash) (row : List Byte) : CanFrame := mkFrame cmdConfigStatus true h row

/-- `CONFIG_STATUS.TERMINATOR` (R69, R144): the index and the frame count. -/
def terminatorFrame (h : Hash) (index count : Byte) : CanFrame := mkFrame cmdConfigStatus true h [index, count]

/-- `APP_ANSWER` replies (R71): byte 0, then an address. -/
def appAnswerFrame (h : Hash) (sub : Byte) (a : Address) : CanFrame := mkFrame cmdAppAnswer true h (sub :: a.toList)

/-- Frames the receiver sends (R72): one byte. -/
def receiverFrame (h : Hash) (sub : Byte) : CanFrame := mkFrame cmdBtldrAnswer true h [sub]

/-- Payload of a `FOR_APP` request built by the agent (R70, R197). -/
def AppRequest.payload : AppRequest → List Byte
  | .boardnumRequest y => subBoardnumRequest :: y.toList
  | .goBtldr y => subGoBtldr :: y.toList
  | .boardnumChange y z => subBoardnumChange :: (y.toList ++ z.toList)

/-- `AGENT.FOR_APP_REQUEST` (R197). -/
def forAppRequestFrame (h : Hash) (r : AppRequest) : CanFrame := mkFrame cmdForApp false h r.payload

/-- `AGENT.DATA_FRAME` (R73, R194): byte 0, then what the receiver copies to `localChunk`, no byte at all included. -/
def dataReplyFrame (h : Hash) (rest : List Byte) : CanFrame := mkFrame cmdBtldrAnswer false h (subMoreData :: rest)

/-- `AGENT.END_FRAME` (R73, R193): byte 0, then bytes the receiver ignores; the well-behaved agent sends none. -/
def endReplyFrame (h : Hash) (rest : List Byte) : CanFrame := mkFrame cmdBtldrAnswer false h (subEndData :: rest)

/-- The logical frame a frame row stands for, from the row's match, mask and payload columns (the opcode table; R66 to R73);
`none` for the rows without a bit pattern and for a standard frame, which has no command. -/
def Instr.frame : Instr → Option CanFrame
  | .rxResponseDrop c h p => some (mkFrame c true h p)
  | .ping h p => some (mkFrame cmdPing false h p)
  | .configStatus h p => some (mkFrame cmdConfigStatus false h p)
  | .forAppBoardnumRequest h r => some (mkFrame cmdForApp false h (subBoardnumRequest :: r))
  | .forAppBoardnumChange h r => some (mkFrame cmdForApp false h (subBoardnumChange :: r))
  | .forAppGoBtldr h r => some (mkFrame cmdForApp false h (subGoBtldr :: r))
  | .forAppNoHandler h p => some (mkFrame cmdForApp false h p)
  | .forBtldr h p => some (mkFrame cmdForBtldr false h p)
  | .hook c h p => some (mkFrame c false h p)
  | .btldrAnswerData h r => some (mkFrame cmdBtldrAnswer false h (subMoreData :: r))
  | .btldrAnswerEnd h r => some (mkFrame cmdBtldrAnswer false h (subEndData :: r))
  | .pingReply h u major minor d => some (pingReplyFrame h u major minor d)
  | .configStatusDescriptor h row => some (descriptorFrame h row)
  | .configStatusTerminator h i n => some (terminatorFrame h i n)
  | .appAnswerBoardnumAnswer h a => some (appAnswerFrame h subBoardnumAnswer a)
  | .appAnswerBoardnumChange h a => some (appAnswerFrame h subBoardnumChange a)
  | .appAnswerGoBtldr h a => some (appAnswerFrame h subGoBtldr a)
  | .btldrAnswerStartData h => some (receiverFrame h subStartData)
  | .btldrAnswerMoreData h => some (receiverFrame h subMoreData)
  | .agentForAppRequest h r => some (forAppRequestFrame h r)
  | .agentDataFrame h r => some (dataReplyFrame h r)
  | .agentEndFrame r => some (endReplyFrame r.hash r.rest)
  | .rxStandardFrame _ _ | .rxBlDiscard _
  | .encode _ | .decode _ _ | .genUid _ _ | .serializeUid _ | .genHash _ | .identLoad _ | .reset | .rxDispatch | .cfgDrain
  | .cfgEmitStep | .blEnter | .blAnnounce | .blRequest | .blPoll | .loadChunk | .endOfData | .blPull | .blTimeout | .blFinish
  | .blHandoff | .pageCommit | .pageRangeStop | .agStart | .agServe | .dataFrame _ | .agBuildRequest _ | .agInterpret _ _ => none

/-- The wire frame of an instruction: a frame row through `ENCODE`; the two rows that stand for any frame keep theirs; `none` for the
rows the table gives no encoding. -/
def encode (i : Instr) : Option WireFrame :=
  match i with
  | .rxStandardFrame id p => some ⟨id, false, p⟩
  | .rxBlDiscard w => some w
  | i => i.frame.map encodeFrame

/-- The context whose rows an instruction belongs to (the table's "format"). -/
def Instr.context : Instr → Option Context
  | .rxStandardFrame _ _ | .rxResponseDrop _ _ _ | .ping _ _ | .configStatus _ _ | .forAppBoardnumRequest _ _
  | .forAppBoardnumChange _ _ | .forAppGoBtldr _ _ | .forAppNoHandler _ _ | .forBtldr _ _ | .hook _ _ _ => some .router
  | .btldrAnswerData _ _ | .btldrAnswerEnd _ _ | .rxBlDiscard _ => some .poll
  | .pingReply _ _ _ _ _ | .configStatusDescriptor _ _ | .configStatusTerminator _ _ _ | .appAnswerBoardnumAnswer _ _
  | .appAnswerBoardnumChange _ _ | .appAnswerGoBtldr _ _ | .btldrAnswerStartData _ | .btldrAnswerMoreData _ => some .transmit
  | .agentForAppRequest _ _ | .agentDataFrame _ _ | .agentEndFrame _ => some .agentTransmit
  | .encode _ | .decode _ _ | .genUid _ _ | .serializeUid _ | .genHash _ | .identLoad _ | .reset | .rxDispatch | .cfgDrain
  | .cfgEmitStep | .blEnter | .blAnnounce | .blRequest | .blPoll | .loadChunk | .endOfData | .blPull | .blTimeout | .blFinish
  | .blHandoff | .pageCommit | .pageRangeStop | .agStart | .agServe | .dataFrame _ | .agBuildRequest _ | .agInterpret _ _ => none

/-! ## The opcode table's numbering -/

/-- The frame whose bits are `w` in the table's numbering (DESIGN CHOICE, log 13): bits 28:0 the identifier; payload byte `k` at bits
`32 + 8k` up. The extended flag and the length are side-band signals without bit numbers: set, and eight. -/
def tableFrame (nbits w : Nat) : WireFrame :=
  let v := w % 2 ^ nbits
  { id := BitVec.ofNat 29 v
    ext := true
    payload := (List.range 8).map fun k => BitVec.ofNat 8 (v >>> (32 + 8 * k)) }

/-- The context in which the table lists a frame (log 13): a `BTLDR_ANSWER` request is an agent's reply, met in the bootloader's wait; a
response in one of the block's own forms is one of its outbound frames; every other frame is met by the router. -/
def tableContext (w : WireFrame) : Context :=
  let f := decodeFrame w.id w.payload
  if f.responseFlag = false ∧ f.command = cmdBtldrAnswer then .poll
  else if f.responseFlag = true ∧ (decodeTransmit w).isSome then .transmit
  else .router

/-- The instruction the decoder reads from a word of the opcode table. -/
def decodeTableWord (nbits w : Nat) : Option Instr :=
  let f := tableFrame nbits w
  (decode (tableContext f) f).toOption

end Sys2Proof
end

