-- ==== Sys2Proof/Machine/Generator.lean ====
section
/-! DEFINITION. IdentityGenerator's functions (spec 41_identity.md R100 to R103), pure: they read and write no state. -/

namespace Sys2Proof.Machine

/-- An ASCII digit `'0'..'9'` (R41, R101). -/
def isDigit (b : Byte) : Bool := decide (0x30#8 ≤ b) && decide (b ≤ 0x39#8)

/-- Both bytes of an address are digits. -/
def bothDigits (a : Address) : Bool := isDigit a.hi && isDigit a.lo

/-- `GEN_UID` (R100): `baseUID + (a[0] − '0') + 3 × (a[1] − '0')` modulo `2^32` (R106, D4). R101 gives it no value outside the digits:
there the result is a free value (log 6). -/
def genUid (baseUid : Uid) (a : Address) : Uid :=
  if bothDigits a then baseUid + (a.hi - 0x30).setWidth 32 + 3 * (a.lo - 0x30).setWidth 32
  else Config.uidOfNonDigits baseUid a.hi a.lo

/-- `SERIALIZE_UID` (R102): big-endian. -/
def serializeUid (uid : Uid) : UidBytes where
  b0 := uid.extractLsb' 24 8
  b1 := uid.extractLsb' 16 8
  b2 := uid.extractLsb' 8 8
  b3 := uid.extractLsb' 0 8

/-- `GEN_HASH` (R103): the exclusive or of the halves, bit 7 forced to 0, bits 8 and 9 to 1. -/
def genHash (uid : Uid) : Hash :=
  ((uid.extractLsb' 16 16 ^^^ uid.extractLsb' 0 16) &&& 0xFF7F#16) ||| 0x0300#16

end Sys2Proof.Machine
end

