-- ==== Sys2Proof/Machine/Memory.lean ====
section
/-! DEFINITION. The two memories of spec 20_memory.md: NV (single bytes) and FLASH (whole pages), each a list of cells in one canonical
form (addresses strictly rising, no entry equal to what an unlisted address reads as). -/

namespace Sys2Proof.Machine

/-- The address spaces of R8 and R40. -/
inductive Space where
  | nv
  | flash
deriving DecidableEq, Repr

/-- The contents of both spaces. Addresses are natural numbers: no space has an end in the spec (R40). -/
structure Memory where
  nv : List Host.Cell
  flash : List Host.Cell
deriving DecidableEq, Repr

/-- What an unlisted byte of NV reads as: `'0'`, so that a node whose storage lists nothing has board address "00" (DESIGN CHOICE,
unsafe, log 2). -/
abbrev nvUnlisted : Byte := 0x30

/-- What an unlisted address reads as. NV: `nvUnlisted`. FLASH: no value (safe, log 3); no rule reads FLASH (R44). -/
def Memory.unlisted : Space → Option Byte
  | .nv => some nvUnlisted
  | .flash => none

/-- The cells of one space. -/
def Memory.cells (m : Memory) : Space → List Host.Cell
  | .nv => m.nv
  | .flash => m.flash

/-- The cells of one space replaced. -/
def Memory.setCells (m : Memory) (cs : List Host.Cell) : Space → Memory
  | .nv => { m with nv := cs }
  | .flash => { m with flash := cs }

/-- The byte listed at an address, if one is. -/
def lookup (a : Nat) : List Host.Cell → Option Byte
  | [] => none
  | c :: cs => if c.1 = a then some c.2 else lookup a cs

/-- The value of one byte (R42: the byte last written, or what the storage held if none was). -/
def Memory.read (m : Memory) (sp : Space) (a : Nat) : Option Byte :=
  match lookup a (m.cells sp) with
  | some v => some v
  | none => Memory.unlisted sp

/-- One byte of NV, which always has a value. -/
def Memory.readNv (m : Memory) (a : Nat) : Byte :=
  match lookup a m.nv with
  | some v => v
  | none => nvUnlisted

/-- The cells with the byte at `a` set to `v`, kept canonical: rising addresses, and no entry that says what `unlisted` says. -/
def put (unlisted : Option Byte) (a : Nat) (v : Byte) : List Host.Cell → List Host.Cell
  | [] => if unlisted = some v then [] else [(a, v)]
  | c :: cs =>
    if c.1 < a then c :: put unlisted a v cs
    else if c.1 = a then (if unlisted = some v then cs else (a, v) :: cs)
    else (if unlisted = some v then c :: cs else (a, v) :: c :: cs)

/-- `MemWrite(space, addr, 1, [v])` (R8); a write always succeeds (R42). -/
def Memory.write (m : Memory) (sp : Space) (a : Nat) (v : Byte) : Memory :=
  m.setCells (put (Memory.unlisted sp) a v (m.cells sp)) sp

/-- `MemWrite(space, addr, n, v)` (R8): the bytes of the list to `addr`, `addr + 1`, ... -/
def Memory.writeList (m : Memory) (sp : Space) (a : Nat) : List Byte → Memory
  | [] => m
  | v :: vs => (m.write sp a v).writeList sp (a + 1) vs

/-- Rising addresses and no entry that an unlisted address would read as well. -/
def canonical (unlisted : Option Byte) : List Host.Cell → Bool
  | [] => true
  | c :: cs => unlisted != some c.2 && (match cs with | [] => true | d :: _ => decide (c.1 < d.1)) && canonical unlisted cs

/-- The canonical form holds in both spaces. -/
def Memory.wf (m : Memory) : Bool := canonical (Memory.unlisted .nv) m.nv && canonical (Memory.unlisted .flash) m.flash

end Sys2Proof.Machine
end

