-- ==== Sys2Proof/Machine/State.lean ====
section
/-! DEFINITION. Everything the spec gives the machine (10_state.md), the platform around it (60_exceptions.md section 4), the agent
(46_update_agent.md R191), and the environment's script; the machine after reset. -/

namespace Sys2Proof.Machine

/-! ## Register groups -/

/-- The `DeviceIdentity` registers (R14). -/
structure DeviceIdentity where
  address : Address
  uid : Uid
  uidBytes : UidBytes
  hash : Hash
deriving DecidableEq, Repr

/-- `mode` (R19, R212). -/
inductive Mode where
  | application
  | bootloader
deriving DecidableEq, Repr

/-- `ivt_select` (R19): the interrupt vector table in use. -/
inductive VectorTable where
  | app
  | boot
deriving DecidableEq, Repr

/-- `phase` (R20). -/
inductive Phase where
  | idle
  | awaitingStart
  | streaming
  | finished
  | handoffToApplication
  | halted
deriving DecidableEq, Repr

/-- `parserState` (R21). -/
inductive ParserState where
  | streaming
  | finished
deriving DecidableEq, Repr

/-- The `TransferSession` registers (R21), the pager's cursors among them (R10). -/
structure TransferSession where
  pageBuffer : List Byte
  pageIndex : Nat
  writeCursor : Nat
  localChunk : List Byte
  chunkCursor : Nat
  chunkLimit : Int
  parserState : ParserState
deriving DecidableEq, Repr

/-! ## Outputs and observations (R24) -/

/-- The named conditions (R200): labels of a step, recorded nowhere in the block. -/
inductive Condition where
  | addressMismatch
  | identityMismatch
  | transferTimeout
  | flashCommitFailure
  | pageRangeStop
deriving DecidableEq, Repr

/-- What `AG_INTERPRET` answers (R198). -/
inductive Answer where
  | notForMe
  | boardNumber (board : Address)
  | changeAcknowledged (old : Address)
  | bootloaderEntered
deriving DecidableEq, Repr

/-- The value a function row returned to its caller (the model's own observation, log 15). -/
inductive Returned where
  | nothing
  | wire (w : WireFrame)
  | frame (f : CanFrame)
  | uid (u : Uid)
  | uidBytes (b : UidBytes)
  | hash (h : Hash)
  | answer (a : Answer)
deriving DecidableEq, Repr

/-- What the block shows: the transmit trace `TX`, oldest frame first (R24, R215); the pulses of R216 and the label of R200, which last
one step (log 21); the value of a function row (log 15). -/
structure Outputs where
  trace : List WireFrame
  detachPeripherals : Bool
  appStart : Bool
  hookValid : Option CanFrame
  label : Option Condition
  returned : Returned
deriving DecidableEq, Repr

/-! ## The other end of the bus and the environment -/

/-- `agentPhase` (R191). -/
inductive AgentPhase where
  | agIdle
  | agServing
  | agDone
deriving DecidableEq, Repr

/-- The agent (R191); `inbox` holds the bus frames it has not handled yet, `trace` those it has sent, both oldest first (log 18). -/
structure Agent where
  image : List Byte
  pos : Nat
  hash : Hash
  phase : AgentPhase
  inbox : List WireFrame
  trace : List WireFrame
deriving DecidableEq, Repr

/-- What happens at a step boundary (log 7). -/
inductive Event where
  /-- The node's turn: its next enabled step, if there is one. -/
  | node
  /-- A third node sends a frame: every other node receives it, this node and the agent (R214, R215; log 18). -/
  | arrive (w : WireFrame)
  /-- The transceiver loses the frame it holds at this position (R215, U15). -/
  | lose (k : Nat)
  /-- The timer's output `timeout_expired` (R166), and which step is taken when it competes with a frame (R151). -/
  | timer (expired timeoutFirst : Bool)
  /-- The reset input (R230). -/
  | reset
  /-- The agent's turn: it handles its oldest frame (R192, R193). -/
  | agent
  /-- The agent never sees the frame at this position of its inbox (R195). -/
  | agentLose (k : Nat)
  /-- The operator gives the agent an image to transfer (R191). -/
  | agentImage (image : List Byte)
  /-- A collaborator calls a function of the core or sends a frame (R128, R195, R197, R198; log 14). -/
  | call (i : Instr)
deriving DecidableEq, Repr

/-- The environment: its script, and the timer's level. -/
structure Environment where
  inputs : List Event
  timeoutExpired : Bool
  timeoutFirst : Bool
deriving DecidableEq, Repr

/-! ## The state -/

/-- The whole machine. INVENTORY.md lists every field with its rule and reset value. -/
structure State where
  params : Params
  rx : CanFrame
  tx : CanFrame
  ident : DeviceIdentity
  cfgPending : Bool
  cfgIndex : BitVec 8
  cfgEmitActive : Bool
  cfgEmitIndex : BitVec 8
  cfgEmitPos : Nat
  mode : Mode
  ivtSelect : VectorTable
  phase : Phase
  waiting : Bool
  session : TransferSession
  mem : Memory
  rxQueue : List WireFrame
  out : Outputs
  agent : Agent
  env : Environment
  freeCount : Nat
deriving DecidableEq, Repr

/-- Why the machine stops. -/
inductive Fault where
  /-- The node's turn with `phase = Halted`: raised by `step`. "A model treats reaching `Halted` as a fault" (R173, R204). Safe: the
  hardware stays silent until reset, and nothing is claimed about it (log 9). -/
  | halted
deriving DecidableEq, Repr

/-- What has no meaning in the model. -/
inductive Refusal where
  /-- An instruction without a meaning yet; only refused arms of `exec` answer it. Safe. -/
  | notModelled (mnemonic : String)
  /-- A step row asked for where its rule does not enable it (the table's "enabled_when"): answered by that row's meaning, never by a
  turn of the node or the agent. Safe (log 16). -/
  | notEnabled
  /-- A frame of more than eight bytes delivered or handed over by the environment, which never does so (R13, D39): raised by `step`
  at an arrival, a receive or a call. Safe (log 12). -/
  | frameTooLong
deriving DecidableEq, Repr

/-! ## After reset -/

/-- `IDENT_LOAD(BASE_UID_APP)` on a storage that lists nothing (R26, R104; log 2). -/
def DeviceIdentity.reset : DeviceIdentity :=
  let a : Address := ⟨Memory.readNv ⟨[], []⟩ Params.examples.nvAddrHiOffset, Memory.readNv ⟨[], []⟩ Params.examples.nvAddrLoOffset⟩
  let uid := genUid Params.examples.baseUidApp a
  ⟨a, uid, serializeUid uid, genHash uid⟩

/-- The machine right after reset: R26 and R230; every register they leave unspecified holds the value log 4 names. -/
def State.reset : State where
  params := Params.examples
  rx := ⟨0, false, 0, []⟩
  tx := ⟨0, false, 0, []⟩
  ident := DeviceIdentity.reset
  cfgPending := false
  cfgIndex := 0
  cfgEmitActive := false
  cfgEmitIndex := 0
  cfgEmitPos := 0
  mode := .application
  ivtSelect := .app
  phase := .idle
  waiting := false
  session :=
    { pageBuffer := List.replicate Params.examples.pageSize 0xFF
      pageIndex := 0
      writeCursor := 0
      localChunk := List.replicate 7 0
      chunkCursor := 1
      chunkLimit := 0
      parserState := .streaming }
  mem := ⟨[], []⟩
  rxQueue := []
  out := ⟨[], false, false, none, none, .nothing⟩
  agent := ⟨[], 0, 0x4710, .agIdle, [], []⟩
  env := ⟨[], false, false⟩
  freeCount := 0

end Sys2Proof.Machine
end

