-- ==== Sys2Proof/Machine/Operands.lean ====
section
/-! DEFINITION. The operand forms: where a handler finds its operands in an inbound payload (spec 30_encoding.md R68, R70, R74), and the
lookups in the parameters. A form a frame is too short for has no operand (R13, R113). -/

namespace Sys2Proof.Machine

/-- `CONFIG_STATUS` (R68): identity bytes 0 to 3 and the parameter index, byte 4; longer frames are accepted. -/
def configOperands : List Byte → Option (UidBytes × Byte)
  | b0 :: b1 :: b2 :: b3 :: index :: _ => some (⟨b0, b1, b2, b3⟩, index)
  | _ => none

/-- `FOR_APP` (R70): the address, bytes 1 and 2. -/
def addressOperand : List Byte → Option Address
  | _ :: hi :: lo :: _ => some ⟨hi, lo⟩
  | _ => none

/-- `BOARDNUM_CHANGE` (R70): the new address, bytes 3 and 4. -/
def newAddressOperand : List Byte → Option Address
  | _ :: _ :: _ :: hi :: lo :: _ => some ⟨hi, lo⟩
  | _ => none

/-- The bytes of `new` laid over the start of `old`; positions not covered keep their bytes and the length stays (R160). -/
def overlay (new old : List Byte) : List Byte := new.take old.length ++ old.drop new.length

/-- `CFG_FRAME_COUNT[i]` (R6), a free value for an index without a table (log 24). -/
def frameCountOf (p : Params) (i : Nat) : Nat :=
  match p.cfgTable[i]? with
  | some t => t.length
  | none => Config.strayFrameCount i

/-- `CFG_TABLE[i][k]` (R6), free bytes where there is no such row (log 24). -/
def tableRow (p : Params) (i k : Nat) : List Byte :=
  match p.cfgTable[i]? >>= (·[k]?) with
  | some row => row
  | none => (List.range 8).map (Config.strayTableByte i k)

/-- `localChunk[i]` at a computed position, a free value outside the array (log 25). -/
def chunkByte (chunk : List Byte) (i : Int) : Byte :=
  match i with
  | .ofNat k => chunk.getD k (Config.strayChunkByte k)
  | .negSucc k => Config.strayChunkByte (.negSucc k)

end Sys2Proof.Machine
end

