-- ==== Sys2Proof/Machine/Flags.lean ====
section
/-! DEFINITION. The block's one-bit statuses (spec 10_state.md R25) read together: when frames are taken, and when each step row is
enabled (the "enabled_when" column of the opcode table). -/

namespace Sys2Proof.Machine

/-- Who takes a received frame (R205, R76): the router by interrupt, the receiver by polling, or nobody. -/
inductive Reception where
  | router
  | poll
  | closed
deriving DecidableEq, Repr

/-- The interrupt is enabled exactly in Application mode (R205); in Bootloader mode frames are taken only while the receiver waits
(R76, R158). -/
def State.reception (s : State) : Reception :=
  match s.mode with
  | .application => .router
  | .bootloader => if s.phase = .streaming ∧ s.waiting = true then .poll else .closed

/-- Bootloader mode in a given phase (R151: the receiver's steps exist while `mode = Bootloader`). -/
def State.inPhase (s : State) (ph : Phase) : Bool := decide (s.mode = .bootloader) && decide (s.phase = ph)

/-- The chunk is used up: `chunkCursor > chunkLimit`, on signed integers (R151). -/
def State.chunkExhausted (s : State) : Bool := decide (s.session.chunkLimit < s.session.chunkCursor)

def State.rxDispatchEnabled (s : State) : Bool := decide (s.mode = .application) && !s.rxQueue.isEmpty
def State.cfgDrainEnabled (s : State) : Bool := decide (s.mode = .application) && s.cfgPending && !s.cfgEmitActive
def State.cfgEmitEnabled (s : State) : Bool := decide (s.mode = .application) && s.cfgEmitActive
def State.blAnnounceEnabled (s : State) : Bool := s.inPhase .awaitingStart
def State.blRequestEnabled (s : State) : Bool := s.inPhase .streaming && !s.waiting && s.chunkExhausted
def State.blPullEnabled (s : State) : Bool := s.inPhase .streaming && !s.waiting && !s.chunkExhausted
def State.blPollEnabled (s : State) : Bool := s.inPhase .streaming && s.waiting && !s.rxQueue.isEmpty
def State.blTimeoutEnabled (s : State) : Bool :=
  s.params.timeoutEn && s.inPhase .streaming && s.waiting && s.env.timeoutExpired
def State.blFinishEnabled (s : State) : Bool := s.inPhase .finished
def State.blHandoffEnabled (s : State) : Bool := s.inPhase .handoffToApplication
def State.pageRangeStopEnabled (s : State) : Bool := decide (s.params.numPages ≤ s.session.pageIndex)

/-- The agent's oldest unhandled frame, decoded; a standard frame has no command (R62). -/
def State.agentFrame (s : State) : Option CanFrame :=
  match s.agent.inbox with
  | [] => none
  | w :: _ => if w.ext then some (decodeFrame w.id w.payload) else none

/-- Is it a receiver's frame with this byte 0 (R192, R193)? -/
def State.agentReceives (s : State) (sub : Byte) : Bool :=
  match s.agentFrame with
  | none => false
  | some f => decide (f.command = cmdBtldrAnswer) && f.responseFlag && f.payload.head? == some sub

def State.agStartEnabled (s : State) : Bool := decide (s.agent.phase = .agIdle) && s.agentReceives subStartData
def State.agServeEnabled (s : State) : Bool := decide (s.agent.phase = .agServing) && s.agentReceives subMoreData

end Sys2Proof.Machine
end

