-- ==== Sys2Proof/Machine/Ops.lean ====
section
/-! DEFINITION. The named operations every meaning is written with: Send, the frame buffers, labels and pulses, the memories, free
values, IDENT_LOAD, taking a frame, and the two changes of mode (spec 60_exceptions.md, 41_identity.md, 44_update_receiver.md). -/

namespace Sys2Proof.Machine

/-! ## Frames -/

/-- `tx <- f; Send(ENCODE(tx))` (R8, R11, R215): the frame joins `TX`, and the bus brings it to the agent (log 18). -/
def State.send (s : State) (f : CanFrame) : State :=
  { s with
    tx := f
    out := { s.out with trace := s.out.trace ++ [encodeFrame f] }
    agent := { s.agent with inbox := s.agent.inbox ++ [encodeFrame f] } }

/-- `rx <- f` (R11). -/
def State.latchRx (s : State) (f : CanFrame) : State := { s with rx := f }

/-- A frame nobody takes stays in the transceiver, still the oldest (R76, R172). -/
def State.holdFrame (s : State) (w : WireFrame) : State := { s with rxQueue := w :: s.rxQueue }

/-! ## Labels, pulses, returned values -/

/-- `raise c`: a label of the step, no state of the block (R200). -/
def State.raise (s : State) (c : Condition) : State := { s with out := { s.out with label := some c } }

/-- `pulse detach_peripherals` (R216). -/
def State.pulseDetach (s : State) : State := { s with out := { s.out with detachPeripherals := true } }

/-- `pulse app_start` (R216). -/
def State.pulseAppStart (s : State) : State := { s with out := { s.out with appStart := true } }

/-- `pulse hook_valid` with the decoded frame `rx` (R128, R216). -/
def State.pulseHook (s : State) : State := { s with out := { s.out with hookValid := some s.rx } }

/-- A function row hands its value to its caller (log 15). -/
def State.giveBack (s : State) (v : Returned) : State := { s with out := { s.out with returned := v } }

/-- A step begins: what lasts one step is gone (R216; log 21). -/
def State.beginStep (s : State) : State :=
  { s with out := { s.out with detachPeripherals := false, appStart := false, hookValid := none, label := none, returned := .nothing } }

/-- The step is taken if its rule enables it; otherwise it has no meaning (log 16). -/
def State.whenEnabled (_s : State) (enabled : Bool) (t : State) : Host.Outcome State Fault Refusal :=
  if enabled then .next t else .refused .notEnabled

/-! ## Memories -/

/-- `MemWrite(NV, a, 1, [v])` (R42). -/
def State.writeNv (s : State) (a : Nat) (v : Byte) : State := { s with mem := s.mem.write .nv a v }

/-- `MemWrite(FLASH, a, n, v)` (R44). -/
def State.writeFlash (s : State) (a : Nat) (vs : List Byte) : State := { s with mem := s.mem.writeList .flash a vs }

/-- The two persisted address bytes (R41). -/
def State.persistedAddress (s : State) : Address :=
  ⟨s.mem.readNv s.params.nvAddrHiOffset, s.mem.readNv s.params.nvAddrLoOffset⟩

/-- Persist a board address, high digit first (R122). -/
def State.persistAddress (s : State) (a : Address) : State :=
  (s.writeNv s.params.nvAddrHiOffset a.hi).writeNv s.params.nvAddrLoOffset a.lo

/-! ## Free values (log 5) -/

/-- A free byte for element `k` of register `reg`. -/
def freeByte (draw reg k : Nat) : Byte := BitVec.ofNat 8 (Config.freeValue draw reg k)

/-- Free bytes for a register array. -/
def freeBytes (draw reg n : Nat) : List Byte := (List.range n).map (freeByte draw reg)

/-- A frame buffer without a specified value (R26): any fields, 0 to 8 bytes. -/
def freeFrame (draw reg : Nat) : CanFrame where
  command := BitVec.ofNat 12 (Config.freeValue draw reg 0)
  responseFlag := decide (Config.freeValue draw reg 1 % 2 = 1)
  hash := BitVec.ofNat 16 (Config.freeValue draw reg 2)
  payload := freeBytes draw (reg + 1) (Config.freeValue draw reg 3 % 9)

/-- A transfer session without specified values (R23, R26): each register within its range (R21). -/
def freeSession (p : Params) (draw : Nat) : TransferSession where
  pageBuffer := freeBytes draw 0 p.pageSize
  pageIndex := Config.freeValue draw 1 0 % (p.numPages + 1)
  writeCursor := Config.freeValue draw 2 0 % (p.pageSize + 1)
  localChunk := freeBytes draw 3 7
  chunkCursor := Config.freeValue draw 4 0 % 9
  chunkLimit := Int.ofNat (Config.freeValue draw 5 0 % 8) - 1
  parserState := if Config.freeValue draw 6 0 % 2 = 1 then .finished else .streaming

/-! ## Identity -/

/-- `IDENT_LOAD(baseUID)` (R104): the persisted address, and what is derived from it. -/
def State.identLoad (s : State) (baseUid : Uid) : State :=
  let a := s.persistedAddress
  let uid := genUid baseUid a
  { s with ident := ⟨a, uid, serializeUid uid, genHash uid⟩ }

/-! ## The changes of mode -/

/-- `BL_ENTER` (R150): Bootloader mode, the boot vector table, the bootloader's identity, a fresh session. `localChunk` is left
unspecified: free bytes (log 5). -/
def State.enterBootloader (s : State) : State :=
  let s := { s with mode := .bootloader, ivtSelect := .boot, cfgPending := false, cfgEmitActive := false }
  let s := s.identLoad s.params.baseUidBl
  { s with
    session :=
      { pageBuffer := List.replicate s.params.pageSize 0xFF
        pageIndex := 0
        writeCursor := 0
        localChunk := freeBytes s.freeCount 3 7
        chunkCursor := 1
        chunkLimit := 0
        parserState := .streaming }
    waiting := false
    phase := .awaitingStart
    freeCount := s.freeCount + 1 }

/-- `BL_HANDOFF` (R170), the return from the bootloader: the application's vector table and mode, the session discarded (free values,
log 5), the `app_start` pulse, then the application's start. -/
def State.handOff (s : State) : State :=
  let s := { s with
    ivtSelect := .app, mode := .application, phase := .idle
    session := freeSession s.params s.freeCount, freeCount := s.freeCount + 1 }
  let s := s.pulseAppStart.identLoad s.params.baseUidApp
  { s with cfgPending := false, cfgEmitActive := false, waiting := false }

end Sys2Proof.Machine
end

