-- ==== Sys2Proof/Machine/Codec.lean ====
section
/-! DEFINITION. ENCODE and DECODE as rows of the opcode table (spec 40_frame_codec.md): pure functions, whose value goes to the caller. -/

namespace Sys2Proof.Machine

/-- `ENCODE(f)` (R90). -/
def execEncode (f : CanFrame) (s : State) : Host.Outcome State Fault Refusal := .next (s.giveBack (.wire (encodeFrame f)))

/-- `DECODE(id, length, payload)` (R92). -/
def execDecode (id : WireId) (payload : List Byte) (s : State) : Host.Outcome State Fault Refusal :=
  .next (s.giveBack (.frame (decodeFrame id payload)))

end Sys2Proof.Machine
end

