-- ==== Sys2Proof/Machine/Agent.lean ====
section
/-! DEFINITION. UpdateAgent (spec 46_update_agent.md): the well-behaved agent's steps, its frames, and the console's two functions. -/

namespace Sys2Proof.Machine

/-- The agent sends a frame: it joins the agent's trace, and the bus brings it to the node's transceiver (R214, R215; log 18). -/
def State.agentSend (s : State) (f : CanFrame) : State :=
  { s with
    agent := { s.agent with trace := s.agent.trace ++ [encodeFrame f] }
    rxQueue := s.rxQueue ++ [encodeFrame f] }

/-- The agent has handled its oldest frame. -/
def State.agentTakes (s : State) : State := { s with agent := { s.agent with inbox := s.agent.inbox.drop 1 } }

/-- The bytes after byte 0 of a data frame (R194): with `CHUNK_CURSOR_START = 1` one trailing byte the receiver does not use. -/
def dataFrameRest (p : Params) (d : List Byte) : List Byte := if p.chunkCursorStart = 1 then d ++ [0x00] else d

/-- `DATA_FRAME(d)` as the table of R194 gives it. -/
def dataFrameOf (p : Params) (h : Hash) (d : List Byte) : CanFrame := dataReplyFrame h (dataFrameRest p d)

/-- `DATA_FRAME(d)` on any bytes: the table of R194 covers 1 to 6 data bytes with `CHUNK_CURSOR_START = 1` and 1 to 7 with 0; for other
numbers the rule's header stands and the payload, of 0 to 8 bytes (R13), is a free value (log 30). -/
def dataFrameValue (p : Params) (h : Hash) (d : List Byte) : CanFrame :=
  if 1 ≤ d.length ∧ d.length + p.chunkCursorStart.val ≤ 7 then dataFrameOf p h d
  else mkFrame cmdBtldrAnswer false h ((Config.unstatedDataPayload p.chunkCursorStart.val d).take 8)

/-- `AG_START` (R192): ready to serve, from the first byte; nothing is sent. -/
def State.startServing (s : State) : State :=
  { s.agentTakes with agent := { s.agentTakes.agent with pos := 0, phase := .agServing } }

/-- The bytes of the next chunk (R193): `min(AGENT_CHUNK, L − pos)` of them. -/
def State.nextChunk (s : State) : List Byte := (s.agent.image.drop s.agent.pos).take s.params.agentChunk

/-- `AG_SERVE` (R193): one frame per request, data while there is any, then `END_DATA`. -/
def State.serveRequest (s : State) : State :=
  let s := s.agentTakes
  if s.agent.pos < s.agent.image.length then
    let d := s.nextChunk
    let s := s.agentSend (dataFrameOf s.params s.agent.hash d)
    { s with agent := { s.agent with pos := s.agent.pos + d.length } }
  else
    let s := s.agentSend (endReplyFrame s.agent.hash [])
    { s with agent := { s.agent with phase := .agDone } }

/-- `AG_INTERPRET(f, Y)` (R198). -/
def interpretAnswer (f : CanFrame) (board : Address) : Answer :=
  if f.command = cmdAppAnswer ∧ f.responseFlag = true then
    match f.payload with
    | b :: y0 :: y1 :: _ =>
      if y0 = board.hi ∧ y1 = board.lo then
        if b = subBoardnumAnswer then .boardNumber board
        else if b = subBoardnumChange then .changeAcknowledged board
        else if b = subGoBtldr then .bootloaderEntered
        else .notForMe
      else .notForMe
    | _ => .notForMe
  else .notForMe

/-! ## The rows -/

/-- `AGENT.FOR_APP_REQUEST` (R197; address bytes that are not two digits: DESIGN CHOICE, log 35). -/
def execAgentForAppRequest (h : Hash) (r : AppRequest) (s : State) : Host.Outcome State Fault Refusal :=
  .next (s.agentSend (forAppRequestFrame h r))

/-- `AGENT.DATA_FRAME` (R73, R194). -/
def execAgentDataFrame (h : Hash) (r : List Byte) (s : State) : Host.Outcome State Fault Refusal :=
  .next (s.agentSend (dataReplyFrame h r))

/-- `AGENT.END_FRAME` (R73, R193). -/
def execAgentEndFrame (r : EndReply) (s : State) : Host.Outcome State Fault Refusal :=
  .next (s.agentSend (endReplyFrame r.hash r.rest))

/-- `AG_START` (R192). -/
def execAgStart (s : State) : Host.Outcome State Fault Refusal := s.whenEnabled s.agStartEnabled s.startServing

/-- `AG_SERVE` (R193). -/
def execAgServe (s : State) : Host.Outcome State Fault Refusal := s.whenEnabled s.agServeEnabled s.serveRequest

/-- `DATA_FRAME(d)` (R194), a constructor: its value goes to the caller. -/
def execDataFrame (d : List Byte) (s : State) : Host.Outcome State Fault Refusal :=
  .next (s.giveBack (.frame (dataFrameValue s.params s.agent.hash d)))

/-- `AG_BUILD_REQUEST(X, Y)` (R197): "The result goes through `ENCODE`". The rule speaks of two-digit addresses; on other bytes the model
builds the frame of the same form (DESIGN CHOICE, log 35). -/
def execAgBuildRequest (r : AppRequest) (s : State) : Host.Outcome State Fault Refusal :=
  .next (s.giveBack (.wire (encodeFrame (forAppRequestFrame s.agent.hash r))))

/-- `AG_INTERPRET(f, Y)` (R198). -/
def execAgInterpret (f : CanFrame) (board : Address) (s : State) : Host.Outcome State Fault Refusal :=
  .next (s.giveBack (.answer (interpretAnswer f board)))

end Sys2Proof.Machine
end

