-- ==== Sys2Proof/Machine/ConfigStream.lean ====
section
/-! DEFINITION. ConfigStream (spec 43_config_stream.md): the idle context's steps. -/

namespace Sys2Proof.Machine

/-- `CFG_DRAIN` (R141): reads the index and clears the flag in one step; an index without a table emits nothing (R146). -/
def State.drainConfig (s : State) : State :=
  let i := s.cfgIndex
  let s := { s with cfgPending := false }
  if i.toNat < s.params.cfgParamCount then { s with cfgEmitIndex := i, cfgEmitPos := 0, cfgEmitActive := true } else s

/-- `CFG_EMIT_STEP` (R142): descriptor frame `k` while there is one, then the terminator. -/
def State.emitConfig (s : State) : State :=
  let i := s.cfgEmitIndex
  let k := s.cfgEmitPos
  let n := frameCountOf s.params i.toNat
  if k < n then
    { s.send (descriptorFrame s.ident.hash (tableRow s.params i.toNat k)) with cfgEmitPos := k + 1 }
  else
    { s.send (terminatorFrame s.ident.hash i (BitVec.ofNat 8 n)) with cfgEmitActive := false }

/-- `CFG_DRAIN` (R141). -/
def execCfgDrain (s : State) : Host.Outcome State Fault Refusal := s.whenEnabled s.cfgDrainEnabled s.drainConfig

/-- `CFG_EMIT_STEP` (R142). -/
def execCfgEmitStep (s : State) : Host.Outcome State Fault Refusal := s.whenEnabled s.cfgEmitEnabled s.emitConfig

end Sys2Proof.Machine
end

