-- ==== Sys2Proof/Machine/Pager.lean ====
section
/-! DEFINITION. FlashPager (spec 45_flash_pager.md): PAGE_COMMIT and PAGE_RANGE_STOP. -/

namespace Sys2Proof.Machine

/-- The page buffer reset to the fill value, and the cursor to its start (R181). -/
def TransferSession.withEmptyPage (pageSize : Nat) (x : TransferSession) : TransferSession :=
  { x with pageBuffer := List.replicate pageSize 0xFF, writeCursor := 0 }

/-- `PAGE_RANGE_STOP` (R186): nothing is written to FLASH and the receiver stops for good. The page stays as it is, unless the append of a
`BL_PULL` has just filled it: then it is emptied, because R22, R163 and R184 have `writeCursor < PAGE_SIZE` between steps; and
`parserState` is not `Finished` in `Halted` (R22; both log 22). -/
def State.stopAtPageRange (s : State) : State :=
  let x := if s.session.writeCursor < s.params.pageSize then s.session else s.session.withEmptyPage s.params.pageSize
  ({ s with phase := .halted, session := { x with parserState := .streaming } } : State).raise .pageRangeStop

/-- The first address of page `p` (R44). -/
def pageAddress (p : Params) (page : Nat) : Nat := p.flashAppBase + page * p.pageSize

/-- `PAGE_COMMIT` (R181): the whole buffer to page `pageIndex`, whatever `writeCursor` is; then an empty buffer and the next page. -/
def State.commitPage (s : State) : State :=
  if s.params.numPages ≤ s.session.pageIndex then s.stopAtPageRange
  else
    let s := s.writeFlash (pageAddress s.params s.session.pageIndex) (s.session.pageBuffer.take s.params.pageSize)
    { s with session := { s.session.withEmptyPage s.params.pageSize with pageIndex := s.session.pageIndex + 1 } }

/-- `PAGE_COMMIT` (R181). -/
def execPageCommit (s : State) : Host.Outcome State Fault Refusal := .next s.commitPage

/-- `PAGE_RANGE_STOP` (R186): when a commit is asked for beyond the last page. -/
def execPageRangeStop (s : State) : Host.Outcome State Fault Refusal := s.whenEnabled s.pageRangeStopEnabled s.stopAtPageRange

end Sys2Proof.Machine
end

