-- ==== Sys2Proof/Machine/Receiver.lean ====
section
/-! DEFINITION. UpdateReceiver (spec 44_update_receiver.md): the steps of the bootloader and what a frame does to a waiting receiver. -/

namespace Sys2Proof.Machine

/-! ## A frame for the waiting receiver -/

/-- `LOAD_CHUNK` (R160), on the frame in `rx`: payload bytes 1 and up to `localChunk`, the limit `length − 2` (signed, at least
`CHUNK_CURSOR_START − 1`), the cursor at its start, the wait over. -/
def State.loadChunk (s : State) : State :=
  { s with
    session := { s.session with
      localChunk := overlay (s.rx.payload.drop 1) s.session.localChunk
      chunkLimit := max ((s.rx.payload.length : Int) - 2) ((s.params.chunkCursorStart.val : Int) - 1)
      chunkCursor := s.params.chunkCursorStart.val }
    waiting := false }

/-- `END_OF_DATA` (R161). -/
def State.endOfData (s : State) : State :=
  { s with session := { s.session with parserState := .finished }, phase := .finished, waiting := false }

/-- What `BL_POLL` does with the frame it has taken (R158): a standard frame is discarded; a matching reply is acted on; anything else is
discarded (R162). -/
def State.pollFrame (s : State) (w : WireFrame) : State :=
  if w.ext = false then s
  else
    let s := s.latchRx (decodeFrame w.id w.payload)
    if s.rx.command = cmdBtldrAnswer ∧ s.rx.responseFlag = false then
      match s.rx.payload with
      | [] => s
      | b :: _ => if b = subMoreData then s.loadChunk else if b = subEndData then s.endOfData else s
    else s

/-! ## The receiver's own steps -/

/-- `BL_ANNOUNCE` (R152). -/
def State.announce (s : State) : State := { s.send (receiverFrame s.ident.hash subStartData) with phase := .streaming }

/-- `BL_REQUEST` (R155). -/
def State.requestChunk (s : State) : State := { s.send (receiverFrame s.ident.hash subMoreData) with waiting := true }

/-- `BL_PULL` (R163): the next byte of the chunk is appended to the page; a full page is committed in the same step. -/
def State.pullByte (s : State) : State :=
  let x := s.session
  let b := chunkByte x.localChunk ((x.chunkCursor : Int) - (s.params.chunkCursorStart.val : Int))
  let s := { s with session := { x with
    chunkCursor := x.chunkCursor + 1
    pageBuffer := x.pageBuffer.set x.writeCursor b
    writeCursor := x.writeCursor + 1 } }
  if s.session.writeCursor = s.params.pageSize then s.commitPage else s

/-- `BL_TIMEOUT` (R166): the transfer is abandoned and the partial page dropped. No more bytes may arrive, so `parserState` is what R22
says it is in `HandoffToApplication` (log 22). -/
def State.abandonTransfer (s : State) : State :=
  ({ s with
    waiting := false, phase := .handoffToApplication
    session := { s.session with parserState := .finished } } : State).raise .transferTimeout

/-- `BL_FINISH` (R168): the unconditional final commit, then the handoff unless the receiver stopped. -/
def State.finishTransfer (s : State) : State :=
  let s := s.commitPage
  if s.phase = .halted then s else { s with phase := .handoffToApplication }

/-! ## The rows -/

/-- `BL_ENTER` (R150). -/
def execBlEnter (s : State) : Host.Outcome State Fault Refusal := .next s.enterBootloader

/-- `BL_ANNOUNCE` (R152). -/
def execBlAnnounce (s : State) : Host.Outcome State Fault Refusal := s.whenEnabled s.blAnnounceEnabled s.announce

/-- `BL_REQUEST` (R155). -/
def execBlRequest (s : State) : Host.Outcome State Fault Refusal := s.whenEnabled s.blRequestEnabled s.requestChunk

/-- `BL_POLL` (R158): takes exactly one frame, the oldest. -/
def execBlPoll (s : State) : Host.Outcome State Fault Refusal :=
  match s.rxQueue with
  | [] => .refused .notEnabled
  | w :: rest => s.whenEnabled s.blPollEnabled (({ s with rxQueue := rest } : State).pollFrame w)

/-- `LOAD_CHUNK` (R160). -/
def execLoadChunk (s : State) : Host.Outcome State Fault Refusal := .next s.loadChunk

/-- `END_OF_DATA` (R161). -/
def execEndOfData (s : State) : Host.Outcome State Fault Refusal := .next s.endOfData

/-- `BL_PULL` (R163). -/
def execBlPull (s : State) : Host.Outcome State Fault Refusal := s.whenEnabled s.blPullEnabled s.pullByte

/-- `BL_TIMEOUT` (R166). -/
def execBlTimeout (s : State) : Host.Outcome State Fault Refusal := s.whenEnabled s.blTimeoutEnabled s.abandonTransfer

/-- `BL_FINISH` (R168). -/
def execBlFinish (s : State) : Host.Outcome State Fault Refusal := s.whenEnabled s.blFinishEnabled s.finishTransfer

/-- `BL_HANDOFF` (R170). -/
def execBlHandoff (s : State) : Host.Outcome State Fault Refusal := s.whenEnabled s.blHandoffEnabled s.handOff

end Sys2Proof.Machine
end

