-- ==== Sys2Proof/Machine/Router.lean ====
section
/-! DEFINITION. CommandRouter (spec 42_command_router.md): the handlers of the receive interrupt, the dispatch of R110, and the inbound
rows of the opcode table, those of the bootloader's wait included. -/

namespace Sys2Proof.Machine

/-! ## Handlers: what each does with the frame in `rx` -/

/-- `PING` (R114): always answered, with the node's own identity, version and device type. -/
def State.handlePing (s : State) : State :=
  s.send (pingReplyFrame s.ident.hash s.ident.uidBytes s.params.fwVersionMajor s.params.fwVersionMinor s.params.deviceType)

/-- `CONFIG_STATUS` (R116, R117): on an exact match of the identity bytes, record the index and set the flag; nothing is sent. -/
def State.handleConfigStatus (s : State) : State :=
  match configOperands s.rx.payload with
  | none => s.raise .identityMismatch
  | some (identity, index) =>
    if identity = s.ident.uidBytes then { s with cfgIndex := index, cfgPending := true } else s.raise .identityMismatch

/-- The address validation every `FOR_APP` request passes first (R118, R113). -/
def State.ifAddressed (s : State) (handler : State → State) : State :=
  match addressOperand s.rx.payload with
  | none => s.raise .addressMismatch
  | some a => if a = s.ident.address then handler s else s.raise .addressMismatch

/-- `BOARDNUM_REQUEST` (R120). -/
def State.handleBoardnumRequest (s : State) : State := s.send (appAnswerFrame s.ident.hash subBoardnumAnswer s.ident.address)

/-- The base constant of the running role (R104, R212). -/
def State.roleBaseUid (s : State) : Uid :=
  match s.mode with
  | .application => s.params.baseUidApp
  | .bootloader => s.params.baseUidBl

/-- `BOARDNUM_CHANGE` (R122): reply with the old address under the old hash, then persist, then recompute; a new address that is not two
digits is dropped (R123). -/
def State.handleBoardnumChange (s : State) : State :=
  match newAddressOperand s.rx.payload with
  | none => s.raise .addressMismatch
  | some new =>
    if bothDigits new then
      ((s.send (appAnswerFrame s.ident.hash subBoardnumChange s.ident.address)).persistAddress new).identLoad s.roleBaseUid
    else s

/-- Mark "setup not done" where the role has the flag (R43, R124). -/
def State.markSetupNotDone (s : State) : State :=
  if s.params.hasSetupFlag then s.writeNv s.params.nvSetupFlagOffset s.params.setupNotDoneValue else s

/-- `GO_BTLDR` (R124): pulse, flag, reply, entry, in this order. -/
def State.handleGoBtldr (s : State) : State :=
  let s := s.pulseDetach.markSetupNotDone
  (s.send (appAnswerFrame s.ident.hash subGoBtldr s.ident.address)).enterBootloader

/-- `HOOK` (R128): the frame is handed to the application layer; the core does nothing of its own (log 27). -/
def State.handleHook (s : State) : State := s.pulseHook

/-- `FOR_APP` (R118): address, then sub-command; a sub-command without a handler is dropped. -/
def State.handleForApp (s : State) : State :=
  s.ifAddressed fun s =>
    if s.rx.payload.head? = some subBoardnumRequest then s.handleBoardnumRequest
    else if s.rx.payload.head? = some subBoardnumChange then s.handleBoardnumChange
    else if s.rx.payload.head? = some subGoBtldr then s.handleGoBtldr
    else s

/-- `RX_DISPATCH` on the frame it has taken (R110), in the order of R209. -/
def State.routeFrame (s : State) (w : WireFrame) : State :=
  if w.ext = false then s
  else
    let s := s.latchRx (decodeFrame w.id w.payload)
    if s.rx.responseFlag then s
    else if s.rx.command = cmdPing then s.handlePing
    else if s.rx.command = cmdConfigStatus then s.handleConfigStatus
    else if s.rx.command = cmdForApp then s.handleForApp
    else s.handleHook

/-! ## The inbound rows -/

/-- A router row: its handler in Application mode; to a waiting receiver it is a frame like any other (R76, R162); while the receiver is
not polling it stays in the transceiver (R172; log 17). -/
def State.onRouter (s : State) (w : WireFrame) (handler : State → State) : Host.Outcome State Fault Refusal :=
  match s.reception with
  | .router => .next (handler s)
  | .poll => .next (s.pollFrame w)
  | .closed => .next (s.holdFrame w)

/-- A row of the bootloader's wait: its action while the receiver waits; the router treats it like any other frame (R76; log 17). -/
def State.onPoll (s : State) (w : WireFrame) (action : State → State) : Host.Outcome State Fault Refusal :=
  match s.reception with
  | .router => .next (s.routeFrame w)
  | .poll => .next (action s)
  | .closed => .next (s.holdFrame w)

/-- A logical frame met by the router: `rx` first, then the handler. -/
def State.onRequest (s : State) (f : CanFrame) (handler : State → State) : Host.Outcome State Fault Refusal :=
  s.onRouter (encodeFrame f) fun s => handler (s.latchRx f)

/-- `RX.STANDARD_FRAME` (R62): discarded before `DECODE`, in both modes. -/
def execRxStandardFrame (id : WireId) (p : List Byte) (s : State) : Host.Outcome State Fault Refusal := s.onRouter ⟨id, false, p⟩ fun s => s

/-- `RX.RESPONSE_DROP` (R110): responses are not for the router. -/
def execRxResponseDrop (c : Command) (h : Hash) (p : List Byte) (s : State) : Host.Outcome State Fault Refusal :=
  s.onRequest (mkFrame c true h p) fun s => s

/-- `PING` (R114). -/
def execPing (h : Hash) (p : List Byte) (s : State) : Host.Outcome State Fault Refusal :=
  s.onRequest (mkFrame cmdPing false h p) State.handlePing

/-- `CONFIG_STATUS` (R116). -/
def execConfigStatus (h : Hash) (p : List Byte) (s : State) : Host.Outcome State Fault Refusal :=
  s.onRequest (mkFrame cmdConfigStatus false h p) State.handleConfigStatus

/-- `FOR_APP.BOARDNUM_REQUEST` (R118, R120). -/
def execForAppBoardnumRequest (h : Hash) (r : List Byte) (s : State) : Host.Outcome State Fault Refusal :=
  s.onRequest (mkFrame cmdForApp false h (subBoardnumRequest :: r)) fun s => s.ifAddressed State.handleBoardnumRequest

/-- `FOR_APP.BOARDNUM_CHANGE` (R118, R122). -/
def execForAppBoardnumChange (h : Hash) (r : List Byte) (s : State) : Host.Outcome State Fault Refusal :=
  s.onRequest (mkFrame cmdForApp false h (subBoardnumChange :: r)) fun s => s.ifAddressed State.handleBoardnumChange

/-- `FOR_APP.GO_BTLDR` (R118, R124). -/
def execForAppGoBtldr (h : Hash) (r : List Byte) (s : State) : Host.Outcome State Fault Refusal :=
  s.onRequest (mkFrame cmdForApp false h (subGoBtldr :: r)) fun s => s.ifAddressed State.handleGoBtldr

/-- `FOR_APP.NO_HANDLER` (R77, R118): dropped after the address validation. -/
def execForAppNoHandler (h : Hash) (p : List Byte) (s : State) : Host.Outcome State Fault Refusal :=
  s.onRequest (mkFrame cmdForApp false h p) fun s => s.ifAddressed fun s => s

/-- `FOR_BTLDR` (R77): like any unrecognised command. -/
def execForBtldr (h : Hash) (p : List Byte) (s : State) : Host.Outcome State Fault Refusal :=
  s.onRequest (mkFrame cmdForBtldr false h p) State.handleHook

/-- `HOOK` (R128). -/
def execHook (c : Command) (h : Hash) (p : List Byte) (s : State) : Host.Outcome State Fault Refusal :=
  s.onRequest (mkFrame c false h p) State.handleHook

/-- `BTLDR_ANSWER.DATA` (R160). -/
def execBtldrAnswerData (h : Hash) (r : List Byte) (s : State) : Host.Outcome State Fault Refusal :=
  let f := mkFrame cmdBtldrAnswer false h (subMoreData :: r)
  s.onPoll (encodeFrame f) fun s => (s.latchRx f).loadChunk

/-- `BTLDR_ANSWER.END` (R161). -/
def execBtldrAnswerEnd (h : Hash) (r : List Byte) (s : State) : Host.Outcome State Fault Refusal :=
  let f := mkFrame cmdBtldrAnswer false h (subEndData :: r)
  s.onPoll (encodeFrame f) fun s => (s.latchRx f).endOfData

/-- `RX.BL_DISCARD` (R162): consumed; only the scratch `rx` may change. -/
def execRxBlDiscard (w : WireFrame) (s : State) : Host.Outcome State Fault Refusal :=
  s.onPoll w fun s => if w.ext then s.latchRx (decodeFrame w.id w.payload) else s

/-- `RX_DISPATCH` (R110): takes exactly one frame, the oldest, and dispatches it. -/
def execRxDispatch (s : State) : Host.Outcome State Fault Refusal :=
  match s.rxQueue with
  | [] => .refused .notEnabled
  | w :: rest => s.whenEnabled s.rxDispatchEnabled (({ s with rxQueue := rest } : State).routeFrame w)

end Sys2Proof.Machine
end

