-- ==== Sys2Proof/Machine/Environment.lean ====
section
/-! DEFINITION. Whose turn it is and which step is taken: the step selection of spec 44_update_receiver.md R151, 60_exceptions.md R205 to
R208 and 43_config_stream.md, the agent's turn, and the environment's events (log 7). -/

namespace Sys2Proof.Machine

/-- What a step does: run an instruction at a state, rest at a state (no step is enabled, or the event is the environment's alone), or
stop. -/
inductive Turn where
  | run (i : Instr) (s : State)
  | rest (s : State)
  | fault (f : Fault)
  | refuse (r : Refusal)
deriving DecidableEq, Repr

/-- A frame is taken from the transceiver: it is the instruction its context decodes it to (R76). -/
def State.receiveTurn (s : State) (c : Context) (w : WireFrame) : Turn :=
  match decode c w with
  | .instr i => .run i s
  | .rejected _ => .refuse .frameTooLong

/-- Application mode: an available frame first (R208), then the emission in progress, then the pending request (R141, R142); otherwise
the node does nothing (R230). -/
def State.applicationTurn (s : State) : Turn :=
  match s.rxQueue with
  | w :: rest => ({ s with rxQueue := rest } : State).receiveTurn .router w
  | [] => if s.cfgEmitActive then .run .cfgEmitStep s else if s.cfgPending then .run .cfgDrain s else .rest s

/-- The wait (R151): a frame or the timeout, whichever is there; with both, either may be taken and `timeoutFirst` says which (log 8);
with neither the receiver is blocked (R165). -/
def State.waitTurn (s : State) : Turn :=
  match s.rxQueue with
  | [] => if s.blTimeoutEnabled then .run .blTimeout s else .rest s
  | w :: rest =>
    if s.blTimeoutEnabled && s.env.timeoutFirst then .run .blTimeout s
    else ({ s with rxQueue := rest } : State).receiveTurn .poll w

/-- Bootloader mode: the one enabled step of R151. `Idle` has none (R20), and neither has `Halted`, which is a fault (R173). -/
def State.bootloaderTurn (s : State) : Turn :=
  match s.phase with
  | .idle => .rest s
  | .awaitingStart => .run .blAnnounce s
  | .streaming => if s.waiting then s.waitTurn else if s.chunkExhausted then .run .blRequest s else .run .blPull s
  | .finished => .run .blFinish s
  | .handoffToApplication => .run .blHandoff s
  | .halted => .fault .halted

/-- The node's turn. -/
def State.nodeTurn (s : State) : Turn :=
  match s.mode with
  | .application => s.applicationTurn
  | .bootloader => s.bootloaderTurn

/-- The agent's turn: its oldest frame is served where R192 or R193 says so, ignored otherwise. -/
def State.agentTurn (s : State) : Turn :=
  if s.agStartEnabled then .run .agStart s
  else if s.agServeEnabled then .run .agServe s
  else .rest s.agentTakes

/-- Rows a collaborator may invoke from outside (log 14): the functions of the core, the sends of the application layer (R128), the
frames and functions of the agent's console (R193 to R198). -/
def callable : Instr → Bool
  | .encode _ | .decode _ _ | .genUid _ _ | .serializeUid _ | .genHash _ | .dataFrame _ | .agBuildRequest _ | .agInterpret _ _
  | .agentForAppRequest _ _ | .agentDataFrame _ _ | .agentEndFrame _ | .pingReply _ _ _ _ _ | .configStatusDescriptor _ _
  | .configStatusTerminator _ _ _ | .appAnswerBoardnumAnswer _ _ | .appAnswerBoardnumChange _ _ | .appAnswerGoBtldr _ _
  | .btldrAnswerStartData _ | .btldrAnswerMoreData _ => true
  | .rxStandardFrame _ _ | .rxResponseDrop _ _ _ | .ping _ _ | .configStatus _ _ | .forAppBoardnumRequest _ _
  | .forAppBoardnumChange _ _ | .forAppGoBtldr _ _ | .forAppNoHandler _ _ | .forBtldr _ _ | .hook _ _ _ | .btldrAnswerData _ _
  | .btldrAnswerEnd _ _ | .rxBlDiscard _ | .identLoad _ | .reset | .rxDispatch | .cfgDrain | .cfgEmitStep | .blEnter | .blAnnounce
  | .blRequest | .blPoll | .loadChunk | .endOfData | .blPull | .blTimeout | .blFinish | .blHandoff | .pageCommit | .pageRangeStop
  | .agStart | .agServe => false

/-- The frame a call hands over, or asks to send, has at most eight bytes (R13, D39). -/
def callFits (i : Instr) : Bool :=
  match i with
  | .encode f | .agInterpret f _ => f.wf
  | .decode _ p => decide (p.length ≤ 8)
  | i => i.frame.all CanFrame.wf

/-- A call from outside: rows that are not for callers do nothing, and neither do the block's outbound rows in Bootloader mode, because
the application layer, which owns them, runs in Application mode only (R212); a frame of more than eight bytes is no frame (log 12). -/
def State.callTurn (s : State) (i : Instr) : Turn :=
  if callable i = false then .rest s
  else if i.context = some .transmit ∧ s.mode ≠ .application then .rest s
  else if callFits i = false then .refuse .frameTooLong
  else .run i s

/-- One event of the script, at the state from which it has been taken. -/
def State.eventTurn (s : State) : Event → Turn
  | .node => s.nodeTurn
  | .arrive w =>
    if w.wf then .rest { s with rxQueue := s.rxQueue ++ [w], agent := { s.agent with inbox := s.agent.inbox ++ [w] } }
    else .refuse .frameTooLong
  | .lose k => .rest { s with rxQueue := s.rxQueue.eraseIdx k }
  | .timer expired first => .rest { s with env := { s.env with timeoutExpired := expired, timeoutFirst := first } }
  | .reset => .run .reset s
  | .agent => s.agentTurn
  | .agentLose k => .rest { s with agent := { s.agent with inbox := s.agent.inbox.eraseIdx k } }
  | .agentImage image => .rest { s with agent := { s.agent with image := image, pos := 0, phase := .agIdle } }
  | .call i => s.callTurn i

/-- The script without its first event. -/
def State.dropInput (s : State) : State := { s with env := { s.env with inputs := s.env.inputs.drop 1 } }

/-- The next event: the script's first; the node moves when the script is empty (log 7). -/
def State.nextEvent (s : State) : Event :=
  match s.env.inputs with
  | [] => .node
  | e :: _ => e

/-- What this step does: one-step outputs are cleared, the event is taken from the script and carried out. -/
def State.turn (s : State) : Turn := s.beginStep.dropInput.eventTurn s.nextEvent

/-- The machine with a word of the opcode table as the instruction of its very next step (log 13): a frame of the router or of the wait
is the transceiver's oldest frame and the receiver of frames is open; an outbound frame is what the application layer sends next. -/
def State.placeWord (s : State) (nbits w : Nat) : State :=
  let f := tableFrame nbits w
  match tableContext f with
  | .router =>
    { s with
      mode := .application, rxQueue := f :: s.rxQueue
      env := { s.env with inputs := .node :: s.env.inputs } }
  | .poll =>
    { s with
      mode := .bootloader, phase := .streaming, waiting := true, rxQueue := f :: s.rxQueue
      env := { s.env with inputs := .node :: s.env.inputs, timeoutFirst := false } }
  | .transmit | .agentTransmit =>
    match decodeTableWord nbits w with
    | some i => { s with mode := .application, env := { s.env with inputs := .call i :: s.env.inputs } }
    | none => s

end Sys2Proof.Machine
end

