-- ==== Sys2Proof/Machine/Identity.lean ====
section
/-! DEFINITION. IdentityGenerator's rows (spec 41_identity.md). -/

namespace Sys2Proof.Machine

/-- `GEN_UID(baseUID, a)` (R100, R101). -/
def execGenUid (baseUid : Uid) (a : Address) (s : State) : Host.Outcome State Fault Refusal := .next (s.giveBack (.uid (genUid baseUid a)))

/-- `SERIALIZE_UID(uid)` (R102). -/
def execSerializeUid (uid : Uid) (s : State) : Host.Outcome State Fault Refusal := .next (s.giveBack (.uidBytes (serializeUid uid)))

/-- `GEN_HASH(uid)` (R103). -/
def execGenHash (uid : Uid) (s : State) : Host.Outcome State Fault Refusal := .next (s.giveBack (.hash (genHash uid)))

/-- `IDENT_LOAD(baseUID)` (R104). -/
def execIdentLoad (baseUid : Uid) (s : State) : Host.Outcome State Fault Refusal := .next (s.identLoad baseUid)

end Sys2Proof.Machine
end

