-- ==== Sys2Proof/Machine/Reset.lean ====
section
/-! DEFINITION. RESET (spec 70_reset_and_hazards.md R230): power-on or the manual power-cycle, between steps. -/

namespace Sys2Proof.Machine

/-- `RESET` (R230, R26): the listed registers, the identity with `BASE_UID_APP`, an empty `TX`; every other register unspecified (free
values, log 5); NV and FLASH unchanged. The transceiver, the agent and the script lie outside the node and stay (log 20). -/
def State.powerCycle (s : State) : State :=
  let d := s.freeCount
  let s := { s with
    mode := .application, ivtSelect := .app, phase := .idle, waiting := false, cfgPending := false, cfgEmitActive := false
    rx := freeFrame d 10, tx := freeFrame d 12
    cfgIndex := BitVec.ofNat 8 (Config.freeValue d 14 0)
    cfgEmitIndex := BitVec.ofNat 8 (Config.freeValue d 15 0)
    cfgEmitPos :=
      Config.freeValue d 16 0 % (frameCountOf s.params (BitVec.ofNat 8 (Config.freeValue d 15 0)).toNat + 1)
    session := freeSession s.params d
    freeCount := d + 1 }
  let s := s.identLoad s.params.baseUidApp
  { s with out := { s.out with trace := [] } }

/-- `RESET` (R230). -/
def execReset (s : State) : Host.Outcome State Fault Refusal := .next s.powerCycle

end Sys2Proof.Machine
end

