-- ==== Sys2Proof/Machine/Transmit.lean ====
section
/-! DEFINITION. The outbound rows of the block (spec 30_encoding.md R66 to R72): each writes `tx` and sends it. The steps that send call
the same frame builders with the node's own hash; a row executed for itself sends the frame its operands say (log 14). -/

namespace Sys2Proof.Machine

/-- `PING.REPLY` (R67, R114). -/
def execPingReply (h : Hash) (u : UidBytes) (major minor : Byte) (d : BitVec 16) (s : State) : Host.Outcome State Fault Refusal :=
  .next (s.send (pingReplyFrame h u major minor d))

/-- `CONFIG_STATUS.DESCRIPTOR` (R69, R142). -/
def execConfigStatusDescriptor (h : Hash) (row : List Byte) (s : State) : Host.Outcome State Fault Refusal :=
  .next (s.send (descriptorFrame h row))

/-- `CONFIG_STATUS.TERMINATOR` (R69, R144). -/
def execConfigStatusTerminator (h : Hash) (index count : Byte) (s : State) : Host.Outcome State Fault Refusal :=
  .next (s.send (terminatorFrame h index count))

/-- `APP_ANSWER.BOARDNUM_ANSWER` (R71, R120). -/
def execAppAnswerBoardnumAnswer (h : Hash) (a : Address) (s : State) : Host.Outcome State Fault Refusal :=
  .next (s.send (appAnswerFrame h subBoardnumAnswer a))

/-- `APP_ANSWER.BOARDNUM_CHANGE` (R71, R122). -/
def execAppAnswerBoardnumChange (h : Hash) (a : Address) (s : State) : Host.Outcome State Fault Refusal :=
  .next (s.send (appAnswerFrame h subBoardnumChange a))

/-- `APP_ANSWER.GO_BTLDR` (R71, R124). -/
def execAppAnswerGoBtldr (h : Hash) (a : Address) (s : State) : Host.Outcome State Fault Refusal :=
  .next (s.send (appAnswerFrame h subGoBtldr a))

/-- `BTLDR_ANSWER.START_DATA` (R72, R152). -/
def execBtldrAnswerStartData (h : Hash) (s : State) : Host.Outcome State Fault Refusal := .next (s.send (receiverFrame h subStartData))

/-- `BTLDR_ANSWER.MORE_DATA` (R72, R155). -/
def execBtldrAnswerMoreData (h : Hash) (s : State) : Host.Outcome State Fault Refusal := .next (s.send (receiverFrame h subMoreData))

end Sys2Proof.Machine
end

