-- ==== Sys2Proof/Machine/Dispatch.lean ====
section
/-! DEFINITION. Every instruction of the opcode table and its meaning, one arm each, in the table's order. -/

namespace Sys2Proof.Machine

def exec (i : Instr) (s : State) : Host.Outcome State Fault Refusal :=
  match i with
  | .rxStandardFrame id p => Sys2Proof.Machine.execRxStandardFrame id p s
  | .rxResponseDrop c h p => Sys2Proof.Machine.execRxResponseDrop c h p s
  | .ping h p => Sys2Proof.Machine.execPing h p s
  | .configStatus h p => Sys2Proof.Machine.execConfigStatus h p s
  | .forAppBoardnumRequest h r => Sys2Proof.Machine.execForAppBoardnumRequest h r s
  | .forAppBoardnumChange h r => Sys2Proof.Machine.execForAppBoardnumChange h r s
  | .forAppGoBtldr h r => Sys2Proof.Machine.execForAppGoBtldr h r s
  | .forAppNoHandler h p => Sys2Proof.Machine.execForAppNoHandler h p s
  | .forBtldr h p => Sys2Proof.Machine.execForBtldr h p s
  | .hook c h p => Sys2Proof.Machine.execHook c h p s
  | .btldrAnswerData h r => Sys2Proof.Machine.execBtldrAnswerData h r s
  | .btldrAnswerEnd h r => Sys2Proof.Machine.execBtldrAnswerEnd h r s
  | .rxBlDiscard w => Sys2Proof.Machine.execRxBlDiscard w s
  | .pingReply h u major minor d => Sys2Proof.Machine.execPingReply h u major minor d s
  | .configStatusDescriptor h row => Sys2Proof.Machine.execConfigStatusDescriptor h row s
  | .configStatusTerminator h index count => Sys2Proof.Machine.execConfigStatusTerminator h index count s
  | .appAnswerBoardnumAnswer h a => Sys2Proof.Machine.execAppAnswerBoardnumAnswer h a s
  | .appAnswerBoardnumChange h a => Sys2Proof.Machine.execAppAnswerBoardnumChange h a s
  | .appAnswerGoBtldr h a => Sys2Proof.Machine.execAppAnswerGoBtldr h a s
  | .btldrAnswerStartData h => Sys2Proof.Machine.execBtldrAnswerStartData h s
  | .btldrAnswerMoreData h => Sys2Proof.Machine.execBtldrAnswerMoreData h s
  | .agentForAppRequest h r => Sys2Proof.Machine.execAgentForAppRequest h r s
  | .agentDataFrame h r => Sys2Proof.Machine.execAgentDataFrame h r s
  | .agentEndFrame r => Sys2Proof.Machine.execAgentEndFrame r s
  | .encode f => Sys2Proof.Machine.execEncode f s
  | .decode id p => Sys2Proof.Machine.execDecode id p s
  | .genUid base a => Sys2Proof.Machine.execGenUid base a s
  | .serializeUid uid => Sys2Proof.Machine.execSerializeUid uid s
  | .genHash uid => Sys2Proof.Machine.execGenHash uid s
  | .identLoad base => Sys2Proof.Machine.execIdentLoad base s
  | .reset => Sys2Proof.Machine.execReset s
  | .rxDispatch => Sys2Proof.Machine.execRxDispatch s
  | .cfgDrain => Sys2Proof.Machine.execCfgDrain s
  | .cfgEmitStep => Sys2Proof.Machine.execCfgEmitStep s
  | .blEnter => Sys2Proof.Machine.execBlEnter s
  | .blAnnounce => Sys2Proof.Machine.execBlAnnounce s
  | .blRequest => Sys2Proof.Machine.execBlRequest s
  | .blPoll => Sys2Proof.Machine.execBlPoll s
  | .loadChunk => Sys2Proof.Machine.execLoadChunk s
  | .endOfData => Sys2Proof.Machine.execEndOfData s
  | .blPull => Sys2Proof.Machine.execBlPull s
  | .blTimeout => Sys2Proof.Machine.execBlTimeout s
  | .blFinish => Sys2Proof.Machine.execBlFinish s
  | .blHandoff => Sys2Proof.Machine.execBlHandoff s
  | .pageCommit => Sys2Proof.Machine.execPageCommit s
  | .pageRangeStop => Sys2Proof.Machine.execPageRangeStop s
  | .agStart => Sys2Proof.Machine.execAgStart s
  | .agServe => Sys2Proof.Machine.execAgServe s
  | .dataFrame d => Sys2Proof.Machine.execDataFrame d s
  | .agBuildRequest r => Sys2Proof.Machine.execAgBuildRequest r s
  | .agInterpret f board => Sys2Proof.Machine.execAgInterpret f board s

end Sys2Proof.Machine
end

