-- ==== Sys2Proof/Machine/Step.lean ====
section
/-! DEFINITION. One step of the machine: the turn decides what runs, `exec` runs it. -/

namespace Sys2Proof.Machine

/-- One step (R8): one atomic transition of the node, the agent or the environment. -/
def step (s : State) : Host.Outcome State Fault Refusal :=
  match s.turn with
  | .run i t => exec i t
  | .rest t => .next t
  | .fault f => .fault f
  | .refuse r => .refused r

/-- The machine with a word of the opcode table as its next instruction (log 13). -/
def State.withFetchWord (s : State) (nbits w : Nat) : State := s.placeWord nbits w

end Sys2Proof.Machine
end

