-- ==== Sys2Proof/Safety.lean ====
section
/-! DEFINITION. What claims are stated in: the wire form of a frame written from the opcode table, the invariants of the state, what a
safe run is, and the relation between a transfer in progress and its image. -/

namespace Sys2Proof.Machine

/-! ## Wire frames as the opcode table writes them -/

/-- An extended frame from identifier bits 28:16 (a row's `match >> 16`), a hash and payload bytes (30_encoding.md R61, R63). -/
def wire (head : BitVec 13) (hash : Hash) (payload : List Byte) : WireFrame := ⟨head ++ hash, true, payload⟩

/-- The node sends one frame: it joins `TX` and travels to the agent; `tx` holds its logical form. -/
def State.withSent (s : State) (command : Command) (head : BitVec 13) (hash : Hash) (payload : List Byte) : State :=
  { s with
    tx := ⟨command, head.getLsbD 0, hash, payload⟩
    out := { s.out with trace := s.out.trace ++ [wire head hash payload] }
    agent := { s.agent with inbox := s.agent.inbox ++ [wire head hash payload] } }

/-- The one-step outputs cleared and the event taken from the script: the state at which an instruction of a node's turn runs. -/
def State.atTurn (s : State) : State :=
  { s with
    out := { s.out with detachPeripherals := false, appStart := false, hookValid := none, label := none, returned := .nothing }
    env := { s.env with inputs := s.env.inputs.drop 1 } }

/-- Every byte of both memories outside the `n` bytes at `a` of space `sp` reads as before. -/
def sameMemoryOutside (m m' : Memory) (sp : Space) (a n : Nat) : Prop :=
  ∀ sp' x, (sp' ≠ sp ∨ x < a ∨ a + n ≤ x) → m'.read sp' x = m.read sp' x

/-! ## Invariants -/

/-- The identity registers are the persisted address and what is derived from it for the running role (10_state.md R15). -/
def State.identityCurrent (s : State) : Prop :=
  s.ident.address = s.persistedAddress
    ∧ s.ident.uid = genUid s.roleBaseUid s.ident.address
    ∧ s.ident.uidBytes = serializeUid s.ident.uid
    ∧ s.ident.hash = genHash s.ident.uid

/-- The sequencing registers agree (R19, R20): `ivt_select = App` exactly in Application mode, `Idle` exactly in Application mode, a
wait only in `Streaming`. -/
def State.sequencingLegal (s : State) : Prop :=
  (s.ivtSelect = .app ↔ s.mode = .application)
    ∧ (s.phase = .idle ↔ s.mode = .application)
    ∧ (s.waiting = true → s.phase = .streaming)

/-- Configuration work exists in Application mode only (R147), and an emission is within its index's table (R18). -/
def State.emissionLegal (s : State) : Prop :=
  (s.cfgPending = true → s.mode = .application)
    ∧ (s.cfgEmitActive = true → s.mode = .application ∧ s.cfgEmitIndex.toNat < s.params.cfgParamCount
        ∧ s.cfgEmitPos ≤ frameCountOf s.params s.cfgEmitIndex.toNat)

/-- The chunk registers are in their ranges (R21) and obey `chunkCursor ≤ chunkLimit + 1` (R22, R164). -/
def State.chunkLegal (s : State) : Prop :=
  s.session.localChunk.length = 7
    ∧ s.params.chunkCursorStart.val ≤ s.session.chunkCursor
    ∧ (s.session.chunkCursor : Int) ≤ s.session.chunkLimit + 1
    ∧ s.session.chunkLimit ≤ 6

/-- The page buffer (R22, R184): its length, the cursor within it, the fill value at and beyond the cursor. -/
def State.pageLegal (s : State) : Prop :=
  s.session.pageBuffer.length = s.params.pageSize
    ∧ s.session.writeCursor < s.params.pageSize
    ∧ ∀ i, s.session.writeCursor ≤ i → i < s.params.pageSize → s.session.pageBuffer[i]? = some 0xFF

/-- The parser state and the chunk in each phase of the bootloader (R22, R150). -/
def State.phaseLegal (s : State) : Prop :=
  (s.session.parserState = .finished ↔ s.phase = .finished ∨ s.phase = .handoffToApplication)
    ∧ (s.phase = .awaitingStart ∨ s.waiting = true → s.chunkExhausted = true)

/-- The transfer session, which exists in Bootloader mode (R21, R22, R184). -/
def State.sessionLegal (s : State) : Prop :=
  s.mode = .bootloader → s.chunkLegal ∧ s.phaseLegal ∧ s.session.pageIndex ≤ s.params.numPages ∧ s.pageLegal

/-- Frames have at most eight bytes wherever they are held (R13), and every frame the block sent is extended (R62). -/
def State.framesLegal (s : State) : Prop :=
  s.rx.wf = true ∧ s.tx.wf = true
    ∧ (∀ w ∈ s.rxQueue, w.wf = true)
    ∧ (∀ w ∈ s.out.trace, w.wf = true ∧ w.ext = true)
    ∧ (∀ w ∈ s.agent.inbox, w.wf = true)

/-- The invariant every step keeps. -/
structure State.Inv (s : State) : Prop where
  params : s.params.wf = true
  memory : s.mem.wf = true
  identity : s.identityCurrent
  sequencing : s.sequencingLegal
  emission : s.emissionLegal
  session : s.sessionLegal
  frames : s.framesLegal

/-- A safe run does not stop: the next step answers a next state. -/
def State.safe (s : State) : Prop := ∃ t, step s = .next t

/-- Events an environment within the spec's bounds produces: frames of at most eight bytes (R13, D39). -/
def Event.withinBounds : Event → Prop
  | .arrive w => w.wf = true
  | .call i => callFits i = true
  | .node | .lose _ | .timer _ _ | .reset | .agent | .agentLose _ | .agentImage _ => True

/-- Events that bring a waiting receiver no matching frame (R165) and do not reset it: other frames, lost frames, the timer, the agent
with or without an image (its answers are told apart by `State.agServeEnabled`), and calls that send no frame of the agent's transfer. -/
def Event.withoutReply : Event → Prop
  | .arrive w => w.wf = true ∧ w.answersWait = false
  | .call i => callFits i = true ∧ ∀ w, encode i = some w → i.context = some .agentTransmit → w.answersWait = false
  | .reset => False
  | .node | .lose _ | .timer _ _ | .agent | .agentLose _ | .agentImage _ => True

/-! ## A transfer in progress -/

/-- The bytes of the chunk that are not pulled yet, in the order they will be (R160, R163). -/
def State.chunkLeft (s : State) : List Byte :=
  (s.session.localChunk.take (s.session.chunkLimit + 1 - s.params.chunkCursorStart.val).toNat).drop
    (s.session.chunkCursor - s.params.chunkCursorStart.val)

/-- FLASH holds these bytes from `FLASH_APP_BASE` on. -/
def State.flashHolds (s : State) (bytes : List Byte) : Prop :=
  ∀ k, k < bytes.length → s.mem.read .flash (s.params.flashAppBase + k) = bytes[k]?

/-- FLASH outside the first `n` bytes of the application's pages is as it was in `m`. -/
def State.flashElsewhere (s : State) (m : Memory) (n : Nat) : Prop :=
  ∀ a, a < s.params.flashAppBase ∨ s.params.flashAppBase + n ≤ a → s.mem.read .flash a = m.read .flash a

/-- The bytes `pulled` so far are in FLASH, page by page, and in the page buffer (R184). -/
def State.appended (s : State) (m : Memory) (pulled : List Byte) : Prop :=
  let committed := s.session.pageIndex * s.params.pageSize
  pulled.length = committed + s.session.writeCursor
    ∧ s.flashHolds (pulled.take committed)
    ∧ s.session.pageBuffer.take s.session.writeCursor = pulled.drop committed
    ∧ s.flashElsewhere m committed

/-- The bus frames the agent has before it while it has not started: the announcement (R72). -/
def State.announcement (s : State) : List WireFrame :=
  if s.agent.phase = .agIdle then [wire 0x00A3#13 s.ident.hash [subStartData]] else []

/-- The bytes the agent has still to send. -/
def State.unsent (s : State) (image : List Byte) : List Byte :=
  if s.agent.phase = .agIdle then image else image.drop s.agent.pos

/-- A request is on its way to the agent. -/
def State.requestUnderWay (s : State) (image pulled : List Byte) : Prop :=
  s.agent.phase ≠ .agDone ∧ s.agent.inbox = s.announcement ++ [wire 0x00A3#13 s.ident.hash [subMoreData]] ∧ s.rxQueue = []
    ∧ pulled ++ s.unsent image = image

/-- A data frame is on its way to the receiver. -/
def State.dataUnderWay (s : State) (image pulled : List Byte) : Prop :=
  s.agent.phase = .agServing ∧ s.agent.inbox = []
    ∧ ∃ d, 1 ≤ d.length ∧ d.length + s.params.chunkCursorStart.val ≤ 7
        ∧ s.rxQueue = [encodeFrame (dataFrameOf s.params s.agent.hash d)] ∧ pulled ++ d ++ s.unsent image = image

/-- The end frame is on its way to the receiver. -/
def State.endUnderWay (s : State) (image pulled : List Byte) : Prop :=
  s.agent.phase = .agDone ∧ s.agent.inbox = [] ∧ s.rxQueue = [encodeFrame (endReplyFrame s.agent.hash [])] ∧ pulled = image

/-- How far a transfer of `image` has come, the memory having been `m` at its start: in every phase, what has been appended, what is in
the chunk, on the bus and still with the agent make up the image (44_update_receiver.md, 45_flash_pager.md R184, R185, R186). -/
def State.transferring (s : State) (image : List Byte) (m : Memory) : Prop :=
  s.mode = .bootloader ∧ s.env.timeoutExpired = false ∧ s.agent.image = image ∧
  match s.phase with
  | .awaitingStart =>
      s.agent.phase = .agIdle ∧ s.agent.inbox = [] ∧ s.rxQueue = [] ∧ s.session.pageIndex = 0 ∧ s.session.writeCursor = 0
        ∧ s.flashElsewhere m 0
  | .streaming =>
      ∃ pulled, s.appended m pulled ∧
        if s.waiting then s.requestUnderWay image pulled ∨ s.dataUnderWay image pulled ∨ s.endUnderWay image pulled
        else s.agent.phase ≠ .agDone ∧ s.agent.inbox = s.announcement ∧ s.rxQueue = []
          ∧ pulled ++ s.chunkLeft ++ s.unsent image = image
  | .finished => s.appended m image ∧ s.agent.inbox = [] ∧ s.rxQueue = []
  | .handoffToApplication =>
      let pages := image.length / s.params.pageSize + 1
      s.session.pageIndex = pages ∧ pages ≤ s.params.numPages ∧ s.agent.inbox = [] ∧ s.rxQueue = []
        ∧ s.flashHolds (image ++ List.replicate (pages * s.params.pageSize - image.length) 0xFF)
        ∧ s.flashElsewhere m (pages * s.params.pageSize)
  | .halted => s.params.numPages * s.params.pageSize ≤ image.length
  | .idle => False

/-- A transfer about to begin: just after `BL_ENTER`, an idle agent with the image, nothing on the bus, no timeout. -/
def State.transferBegins (s : State) (image : List Byte) : Prop :=
  s.Inv ∧ s.mode = .bootloader ∧ s.phase = .awaitingStart ∧ s.session.pageIndex = 0 ∧ s.session.writeCursor = 0
    ∧ s.rxQueue = [] ∧ s.env.timeoutExpired = false
    ∧ s.agent.image = image ∧ s.agent.phase = .agIdle ∧ s.agent.inbox = []

end Sys2Proof.Machine
end

