-- ==== Sys2Proof/Certificates/Slice0/Obligations.lean ====
section
/-! DEFINITION. The statements for the provers. Each says in its docstring which rule of spec/ it formalises or which entry of the
assumption log it rests on; OBLIGATIONS.json lists them. Two conventions run through them. A sent frame (`State.withSent`) joins `TX`
as the rules say, and is then on its way to the agent, which is log 18's reading of 60_exceptions.md ("A frame any node sends is received
by every other node"). A function row's value stands in `out.returned`, which is log 15's. -/

open Sys2Proof Sys2Proof.Machine

/-! ## FrameCodec -/

/-- R93: decoding an encoded frame gives it back, for every command of twelve bits, with its payload. -/
def Obligations.DecodeAfterEncodeIsIdentity : Prop :=
  ∀ f : CanFrame, decodeFrame (encodeFrame f).id (encodeFrame f).payload = f

/-- R94: encoding a decoded identifier gives it back, and packing is a bijection from (command, flag, hash) to 29-bit identifiers. -/
def Obligations.EncodeAfterDecodeIsIdentity : Prop :=
  (∀ id p, encodeFrame (decodeFrame id p) = ⟨id, true, p⟩)
    ∧ Function.Bijective fun x : Command × Bool × Hash => (encodeFrame ⟨x.1, x.2.1, x.2.2, []⟩).id

/-- R90: ENCODE answers the three fields side by side, the extended flag and the payload, and changes nothing else. -/
def Obligations.EncodePacksFields : Prop :=
  ∀ (f : CanFrame) (s : State),
    exec (.encode f) s = .next { s with out := { s.out with
      returned := .wire ⟨f.command ++ BitVec.ofBool f.responseFlag ++ f.hash, true, f.payload⟩ } }

/-- R92: DECODE answers bits 28:17, 16 and 15:0 and the payload, on every identifier, and changes nothing else; an identifier that
differs in bit 16 only gives the same command and hash. -/
def Obligations.DecodeSplitsFields : Prop :=
  ∀ (id : WireId) (p : List Byte) (s : State),
    exec (.decode id p) s = .next { s with out := { s.out with
        returned := .frame ⟨id.extractLsb' 17 12, id.getLsbD 16, id.extractLsb' 0 16, p⟩ } }
      ∧ exec (.decode (id ^^^ 0x00010000#29) p) s = .next { s with out := { s.out with
          returned := .frame ⟨id.extractLsb' 17 12, !id.getLsbD 16, id.extractLsb' 0 16, p⟩ } }

/-! ## IdentityGenerator -/

/-- R100, R106: on digits GEN_UID answers `baseUID + hi + 3 × lo` modulo `2^32`, the added term at most 36; nothing else changes. -/
def Obligations.GenUidAddsWeightedDigits : Prop :=
  ∀ (base : Uid) (a : Address) (s : State),
    0x30 ≤ a.hi.toNat → a.hi.toNat ≤ 0x39 → 0x30 ≤ a.lo.toNat → a.lo.toNat ≤ 0x39 →
    ∃ u : Uid, exec (.genUid base a) s = .next { s with out := { s.out with returned := .uid u } }
      ∧ u.toNat = (base.toNat + (a.hi.toNat - 0x30) + 3 * (a.lo.toNat - 0x30)) % 2 ^ 32
      ∧ (a.hi.toNat - 0x30) + 3 * (a.lo.toNat - 0x30) ≤ 36

/-- R102: SERIALIZE_UID answers four bytes that, most significant first, are the UID. -/
def Obligations.SerializeUidIsBigEndian : Prop :=
  ∀ (u : Uid) (s : State), ∃ b : UidBytes,
    exec (.serializeUid u) s = .next { s with out := { s.out with returned := .uidBytes b } } ∧ b.b0 ++ b.b1 ++ b.b2 ++ b.b3 = u

/-- R103: GEN_HASH answers a hash whose bits 7, 8, 9 are 0, 1, 1 and whose other bits are the exclusive or of the UID's halves. -/
def Obligations.GenHashForcesThreeBits : Prop :=
  ∀ (u : Uid) (s : State), ∃ h : Hash,
    exec (.genHash u) s = .next { s with out := { s.out with returned := .hash h } }
      ∧ h.getLsbD 7 = false ∧ h.getLsbD 8 = true ∧ h.getLsbD 9 = true
      ∧ ∀ k, k < 16 → k ≠ 7 → k ≠ 8 → k ≠ 9 → h.getLsbD k = (u.getLsbD (16 + k) ^^ u.getLsbD k)

/-- IDENT_LOAD caches the two persisted bytes and what the generator makes of them, and changes nothing else (41_identity.md section 4).
It completes on every two bytes, as GEN_UID does: on bytes that are not digits, to which no rule gives a value, with some value (the
model's choice of log 6). -/
def Obligations.IdentLoadCachesPersistedAddress : Prop :=
  ∀ (base : Uid) (s : State), ∃ t, exec (.identLoad base) s = .next t
    ∧ t = { s with ident := t.ident }
    ∧ s.mem.read .nv s.params.nvAddrHiOffset = some t.ident.address.hi
    ∧ s.mem.read .nv s.params.nvAddrLoOffset = some t.ident.address.lo
    ∧ exec (.genUid base t.ident.address) s = .next { s with out := { s.out with returned := .uid t.ident.uid } }
    ∧ exec (.serializeUid t.ident.uid) s = .next { s with out := { s.out with returned := .uidBytes t.ident.uidBytes } }
    ∧ exec (.genHash t.ident.uid) s = .next { s with out := { s.out with returned := .hash t.ident.hash } }
    ∧ ∀ a : Address, ∃ u : Uid, exec (.genUid base a) s = .next { s with out := { s.out with returned := .uid u } }

/-! ## CommandRouter -/

/-- R114: in Application mode every PING request is answered, whatever its hash and payload, with one frame; a PING with `R = 1` is not. -/
def Obligations.PingIsAlwaysAnswered : Prop :=
  ∀ (h : Hash) (p : List Byte) (s : State), s.mode = .application →
    exec (.ping h p) s = .next (({ s with rx := ⟨0x018, false, h, p⟩ } : State).withSent 0x018 0x0031#13 s.ident.hash
        [s.ident.uidBytes.b0, s.ident.uidBytes.b1, s.ident.uidBytes.b2, s.ident.uidBytes.b3, s.params.fwVersionMajor,
          s.params.fwVersionMinor, s.params.deviceType.extractLsb' 8 8, s.params.deviceType.extractLsb' 0 8])
      ∧ exec (.rxResponseDrop 0x018 h p) s = .next { s with rx := ⟨0x018, true, h, p⟩ }

/-- R116: a CONFIG_STATUS request with this node's four identity bytes records byte 4 and sets the flag; a shorter one or any other
identity is dropped; no frame is sent. -/
def Obligations.ConfigStatusRecordsMatchingRequest : Prop :=
  ∀ (h : Hash) (p : List Byte) (s : State), s.mode = .application →
    (∀ index, p.take 5 = s.ident.uidBytes.toList ++ [index] →
      exec (.configStatus h p) s = .next { s with rx := ⟨0x01D, false, h, p⟩, cfgIndex := index, cfgPending := true })
    ∧ ((p.length < 5 ∨ p.take 4 ≠ s.ident.uidBytes.toList) →
      exec (.configStatus h p) s = .next { s with
        rx := ⟨0x01D, false, h, p⟩, out := { s.out with label := some .identityMismatch } })

/-- A FOR_APP request of any row that is too short for the address or carries another one is dropped (42_command_router.md section 4). -/
def Obligations.ForAppFiltersOtherAddresses : Prop :=
  ∀ (i : Instr) (h : Hash) (p : List Byte) (s : State), s.mode = .application →
    i.wf = true → i.context = some .router → i.frame = some ⟨0x052, false, h, p⟩ →
    (p.length < 3 ∨ (p.drop 1).take 2 ≠ [s.ident.address.hi, s.ident.address.lo]) →
    exec i s = .next { s with rx := ⟨0x052, false, h, p⟩, out := { s.out with label := some .addressMismatch } }

/-- A FOR_APP request to this node without a handler is dropped (42_command_router.md section 4; 30_encoding.md section 6). -/
def Obligations.UnhandledSubcommandIsDropped : Prop :=
  ∀ (h : Hash) (p : List Byte) (s : State), s.mode = .application → (Instr.forAppNoHandler h p).wf = true →
    (p.drop 1).take 2 = [s.ident.address.hi, s.ident.address.lo] →
    exec (.forAppNoHandler h p) s = .next { s with rx := ⟨0x052, false, h, p⟩ }

/-- R120: BOARDNUM_REQUEST to this node is answered with its address. -/
def Obligations.BoardnumRequestReportsAddress : Prop :=
  ∀ (h : Hash) (r : List Byte) (s : State), s.mode = .application → r.take 2 = [s.ident.address.hi, s.ident.address.lo] →
    exec (.forAppBoardnumRequest h r) s = .next (({ s with rx := ⟨0x052, false, h, 0 :: r⟩ } : State).withSent 0x053 0x00A7#13
      s.ident.hash [1, s.ident.address.hi, s.ident.address.lo])

/-- R122, R123: BOARDNUM_CHANGE to this node. Too short: dropped with a label. New bytes not both digits: dropped. Otherwise the reply
carries the old address under the old hash, the two NV bytes hold the new address, the identity is recomputed from it, and every other
byte of memory and every other register is unchanged. -/
def Obligations.BoardnumChangeRepliesThenPersists : Prop :=
  ∀ (h : Hash) (r : List Byte) (s : State), s.mode = .application → s.params.wf = true → s.mem.wf = true →
    r.take 2 = [s.ident.address.hi, s.ident.address.lo] →
    (r.length < 4 → exec (.forAppBoardnumChange h r) s = .next { s with
        rx := ⟨0x052, false, h, 2 :: r⟩, out := { s.out with label := some .addressMismatch } })
    ∧ ∀ z0 z1, (r.drop 2).take 2 = [z0, z1] →
        (¬ (0x30 ≤ z0.toNat ∧ z0.toNat ≤ 0x39 ∧ 0x30 ≤ z1.toNat ∧ z1.toNat ≤ 0x39) →
          exec (.forAppBoardnumChange h r) s = .next { s with rx := ⟨0x052, false, h, 2 :: r⟩ })
        ∧ ((0x30 ≤ z0.toNat ∧ z0.toNat ≤ 0x39 ∧ 0x30 ≤ z1.toNat ∧ z1.toNat ≤ 0x39) →
          ∃ m : Memory,
            exec (.forAppBoardnumChange h r) s = .next { ({ s with rx := ⟨0x052, false, h, 2 :: r⟩ } : State).withSent 0x053
                0x00A7#13 s.ident.hash [2, s.ident.address.hi, s.ident.address.lo] with
              mem := m
              ident := ⟨⟨z0, z1⟩, genUid s.params.baseUidApp ⟨z0, z1⟩, serializeUid (genUid s.params.baseUidApp ⟨z0, z1⟩),
                genHash (genUid s.params.baseUidApp ⟨z0, z1⟩)⟩ }
            ∧ m.read .nv s.params.nvAddrHiOffset = some z0 ∧ m.read .nv s.params.nvAddrLoOffset = some z1
            ∧ ∀ sp a, (sp = .flash ∨ (a ≠ s.params.nvAddrHiOffset ∧ a ≠ s.params.nvAddrLoOffset)) → m.read sp a = s.mem.read sp a)

/-- R124: GO_BTLDR to this node pulses `detach_peripherals`, writes the setup flag where the role has one, replies under the
application's hash, and ends with BL_ENTER. That it answers on stored bytes that are not digits, where R101 says a model refuses BL_ENTER's
IDENT_LOAD, is the model's choice of log 6. -/
def Obligations.GoBtldrRepliesThenEnters : Prop :=
  ∀ (h : Hash) (r : List Byte) (s : State), s.mode = .application → s.mem.wf = true →
    r.take 2 = [s.ident.address.hi, s.ident.address.lo] →
    ∃ (m : Memory) (t : State),
      exec (.forAppGoBtldr h r) s = .next t
      ∧ exec .blEnter { ({ s with rx := ⟨0x052, false, h, 3 :: r⟩, out := { s.out with detachPeripherals := true } } : State).withSent
            0x053 0x00A7#13 s.ident.hash [3, s.ident.address.hi, s.ident.address.lo] with mem := m } = .next t
      ∧ (s.params.hasSetupFlag = true → m.read .nv s.params.nvSetupFlagOffset = some s.params.setupNotDoneValue)
      ∧ ∀ sp a, (s.params.hasSetupFlag = false ∨ sp = .flash ∨ a ≠ s.params.nvSetupFlagOffset) → m.read sp a = s.mem.read sp a

/-- A request whose command is none of PING, CONFIG_STATUS and FOR_APP (FOR_BTLDR, log 26, and BTLDR_ANSWER, log 17, among them) raises
`hook_valid` with the decoded frame; the core sends nothing and changes nothing else (42_command_router.md section 5). That the whole
state is the same otherwise, `TX` and NV included, treats the hook as doing nothing: the model's choice of log 27. -/
def Obligations.OtherRequestsGoToTheHook : Prop :=
  ∀ (h : Hash) (p : List Byte) (s : State), s.mode = .application →
    (∀ c : Command, c ≠ 0x018 → c ≠ 0x01D → c ≠ 0x052 → exec (.hook c h p) s = .next { s with
        rx := ⟨c, false, h, p⟩, out := { s.out with hookValid := some ⟨c, false, h, p⟩ } })
    ∧ exec (.forBtldr h p) s = .next { s with
        rx := ⟨0x050, false, h, p⟩, out := { s.out with hookValid := some ⟨0x050, false, h, p⟩ } }
    ∧ exec (.btldrAnswerData h p) s = .next { s with
        rx := ⟨0x051, false, h, 5 :: p⟩, out := { s.out with hookValid := some ⟨0x051, false, h, 5 :: p⟩ } }
    ∧ exec (.btldrAnswerEnd h p) s = .next { s with
        rx := ⟨0x051, false, h, 6 :: p⟩, out := { s.out with hookValid := some ⟨0x051, false, h, 6 :: p⟩ } }

/-- Standard frames are discarded before DECODE in both modes; the router drops every response (30_encoding.md sections 1 and 5). -/
def Obligations.StandardFramesAndResponsesAreDropped : Prop :=
  ∀ (id : WireId) (c : Command) (h : Hash) (p : List Byte) (s : State),
    (s.reception ≠ .closed → exec (.rxStandardFrame id p) s = .next s)
      ∧ (s.mode = .application → exec (.rxResponseDrop c h p) s = .next { s with rx := ⟨c, true, h, p⟩ })

/-- An inbound row's meaning follows who takes the frame: the router treats it as its own decoding, a waiting receiver as its own, and
while nobody takes frames it stays the oldest in the transceiver (30_encoding.md section 5; 44_update_receiver.md section 1). -/
def Obligations.FrameMeaningFollowsReception : Prop :=
  ∀ (i : Instr) (w : WireFrame) (s : State), i.wf = true → encode i = some w → (i.context = some .router ∨ i.context = some .poll) →
    (s.reception = .router → exec i s = exec (decodeRouter w) s)
      ∧ (s.reception = .poll → exec i s = exec (decodePoll w) s)
      ∧ (s.reception = .closed → exec i s = .next { s with rxQueue := w :: s.rxQueue })

/-- RX_DISPATCH and BL_POLL, written as R110 and R158 write them, take the oldest frame and do what its decoded instruction does. -/
def Obligations.ReceiveStepsRunTheDecodedFrame : Prop :=
  ∀ (w : WireFrame) (rest : List WireFrame) (s : State), s.rxQueue = w :: rest → w.wf = true →
    (s.reception = .router → ∃ i t, decode .router w = .instr i ∧ exec .rxDispatch s = .next t ∧ exec i { s with rxQueue := rest } = .next t)
      ∧ (s.reception = .poll → ∃ i t, decode .poll w = .instr i ∧ exec .blPoll s = .next t ∧ exec i { s with rxQueue := rest } = .next t)

/-! ## ConfigStream -/

/-- R141, R146: CFG_DRAIN clears the flag and starts the emission of the recorded index, or of nothing if there is no such table. -/
def Obligations.DrainStartsEmission : Prop :=
  ∀ s : State, s.mode = .application → s.cfgPending = true → s.cfgEmitActive = false →
    (s.cfgIndex.toNat < s.params.cfgTable.length → exec .cfgDrain s = .next { s with
        cfgPending := false, cfgEmitIndex := s.cfgIndex, cfgEmitPos := 0, cfgEmitActive := true })
      ∧ (s.params.cfgTable.length ≤ s.cfgIndex.toNat → exec .cfgDrain s = .next { s with cfgPending := false })

/-- R142, R144: CFG_EMIT_STEP sends descriptor frame `k` of the table while there is one, then the terminator with the index and the
frame count, and ends the emission. -/
def Obligations.EmitStepSendsDescriptorOrTerminator : Prop :=
  ∀ (s : State) (table : List (List Byte)), s.mode = .application → s.cfgEmitActive = true →
    s.params.cfgTable[s.cfgEmitIndex.toNat]? = some table →
    (∀ row, table[s.cfgEmitPos]? = some row → exec .cfgEmitStep s = .next { s.withSent 0x01D 0x003B#13 s.ident.hash row with
        cfgEmitPos := s.cfgEmitPos + 1 })
      ∧ (table.length ≤ s.cfgEmitPos → exec .cfgEmitStep s = .next { s.withSent 0x01D 0x003B#13 s.ident.hash
          [s.cfgEmitIndex, BitVec.ofNat 8 table.length] with cfgEmitActive := false })

/-- R145: an undisturbed emission of index `i` sends its descriptor frames in table order and then one terminator: with nothing to
receive, `CFG_FRAME_COUNT[i] + 2` steps from the pending request are the drain and exactly these frames. -/
def Obligations.EmissionSendsTheWholeTable : Prop :=
  ∀ (s : State) (table : List (List Byte)), s.mode = .application → s.env.inputs = [] → s.rxQueue = [] →
    s.cfgPending = true → s.cfgEmitActive = false → s.params.cfgTable[s.cfgIndex.toNat]? = some table →
    ∃ t, core.run (table.length + 2) s = .next t
      ∧ t.out.trace = s.out.trace ++ table.map (wire 0x003B#13 s.ident.hash)
          ++ [wire 0x003B#13 s.ident.hash [s.cfgIndex, BitVec.ofNat 8 table.length]]
      ∧ t.cfgPending = false ∧ t.cfgEmitActive = false ∧ t.mem = s.mem ∧ t.ident = s.ident

/-! ## UpdateReceiver -/

/-- R150: BL_ENTER sets exactly the registers its rule lists, the identity with `BASE_UID_BL`; `localChunk` is left open. That it
completes on stored bytes that are not digits, where R101 says a model refuses its IDENT_LOAD, is the model's choice of log 6. -/
def Obligations.EntryCreatesFreshSession : Prop :=
  ∀ s : State, ∃ t u, exec .blEnter s = .next t ∧ exec (.identLoad s.params.baseUidBl) s = .next u
    ∧ t = { s with
        mode := .bootloader, ivtSelect := .boot, cfgPending := false, cfgEmitActive := false, ident := u.ident
        session := ⟨List.replicate s.params.pageSize 0xFF, 0, 0, t.session.localChunk, 1, 0, .streaming⟩
        waiting := false, phase := .awaitingStart, freeCount := t.freeCount }

/-- R152: BL_ANNOUNCE sends START_DATA and goes to `Streaming`. -/
def Obligations.AnnounceSendsStartData : Prop :=
  ∀ s : State, s.mode = .bootloader → s.phase = .awaitingStart →
    exec .blAnnounce s = .next { s.withSent 0x051 0x00A3#13 s.ident.hash [4] with phase := .streaming }

/-- R155: BL_REQUEST sends MORE_DATA and starts the wait. -/
def Obligations.RequestSendsMoreData : Prop :=
  ∀ s : State, s.mode = .bootloader → s.phase = .streaming → s.waiting = false → s.session.chunkLimit < s.session.chunkCursor →
    exec .blRequest s = .next { s.withSent 0x051 0x00A3#13 s.ident.hash [5] with waiting := true }

/-- R160: a data reply loads the chunk. Byte `j + 1` goes to `localChunk[j]`, other positions keep their bytes; the limit is
`length − 2`, at least `CHUNK_CURSOR_START − 1`; the cursor starts; the wait ends; nothing else changes but `rx`. -/
def Obligations.DataReplyLoadsTheChunk : Prop :=
  ∀ (h : Hash) (r : List Byte) (s : State), r.length ≤ 7 → s.session.localChunk.length = 7 →
    (s.reception = .poll → exec (.btldrAnswerData h r) s = exec .loadChunk { s with rx := ⟨0x051, false, h, 5 :: r⟩ })
    ∧ (s.rx.payload = 5 :: r → ∃ t, exec .loadChunk s = .next t
      ∧ t = { s with
          waiting := false
          session := { s.session with
            localChunk := t.session.localChunk
            chunkLimit := max ((r.length : Int) - 1) ((s.params.chunkCursorStart.val : Int) - 1)
            chunkCursor := s.params.chunkCursorStart.val } }
      ∧ t.session.localChunk.length = 7
      ∧ ∀ j, j < 7 → t.session.localChunk[j]? = if j < r.length then r[j]? else s.session.localChunk[j]?)

/-- R161: an end reply finishes the stream; its other bytes are ignored. -/
def Obligations.EndReplyFinishesTheStream : Prop :=
  ∀ (h : Hash) (r : List Byte) (s : State),
    exec .endOfData s = .next { s with
        phase := .finished, waiting := false, session := { s.session with parserState := .finished } }
      ∧ (s.reception = .poll → exec (.btldrAnswerEnd h r) s = .next { s with
          rx := ⟨0x051, false, h, 6 :: r⟩, phase := .finished, waiting := false
          session := { s.session with parserState := .finished } })

/-- R162: a frame that does not match is consumed; only `rx` changes, and not even that for a standard frame. -/
def Obligations.UnmatchedFrameIsDiscarded : Prop :=
  ∀ (w : WireFrame) (s : State), s.reception = .poll → (Instr.rxBlDiscard w).wf = true →
    exec (.rxBlDiscard w) s = .next (if w.ext then { s with rx := decodeFrame w.id w.payload } else s)
      ∧ ∀ i, i.context = some .router → i.wf = true → encode i = some w →
          exec i s = .next (if w.ext then { s with rx := decodeFrame w.id w.payload } else s)

/-- R163: BL_PULL appends the chunk's next byte to the page, and a page it fills is committed in the same step. -/
def Obligations.PullAppendsOneByte : Prop :=
  ∀ s : State, s.mode = .bootloader → s.phase = .streaming → s.waiting = false →
    s.session.chunkCursor ≤ s.session.chunkLimit → s.chunkLegal →
    ∃ b, s.session.localChunk[s.session.chunkCursor - s.params.chunkCursorStart.val]? = some b
      ∧ let u := { s with session := { s.session with
            chunkCursor := s.session.chunkCursor + 1
            pageBuffer := s.session.pageBuffer.set s.session.writeCursor b
            writeCursor := s.session.writeCursor + 1 } }
        (s.session.writeCursor + 1 ≠ s.params.pageSize → exec .blPull s = .next u)
          ∧ (s.session.writeCursor + 1 = s.params.pageSize → ∃ t, exec .blPull s = .next t ∧ exec .pageCommit u = .next t)

/-- R166: BL_TIMEOUT exists with `TIMEOUT_EN` only; it ends the wait, abandons the transfer without a commit and goes to the handoff,
where `parserState` is `Finished` (R22; log 22). Without the parameter the row is not enabled, which the model answers with a refusal (log 16). -/
def Obligations.TimeoutAbandonsTheTransfer : Prop :=
  ∀ s : State,
    (s.params.timeoutEn = true → s.mode = .bootloader → s.phase = .streaming → s.waiting = true → s.env.timeoutExpired = true →
      exec .blTimeout s = .next { s with
        waiting := false, phase := .handoffToApplication, session := { s.session with parserState := .finished }
        out := { s.out with label := some .transferTimeout } })
    ∧ (s.params.timeoutEn = false → exec .blTimeout s = .refused .notEnabled)

/-- R168: BL_FINISH commits the buffer whatever `writeCursor` is, and goes to the handoff unless the receiver stopped. -/
def Obligations.FinishCommitsUnconditionally : Prop :=
  ∀ s : State, s.mode = .bootloader → s.phase = .finished →
    (s.session.pageIndex < s.params.numPages →
      ∃ t, exec .pageCommit s = .next t ∧ exec .blFinish s = .next { t with phase := .handoffToApplication })
    ∧ (s.params.numPages ≤ s.session.pageIndex → ∃ t, exec .pageCommit s = .next t ∧ exec .blFinish s = .next t ∧ t.phase = .halted)

/-- R170: BL_HANDOFF selects the application's vector table and mode, pulses `app_start`, which stands for the entry point, and sets
exactly the other registers its rule lists, the identity with `BASE_UID_APP`; the session is left open. That it completes on
stored bytes that are not digits, where R101 says a model refuses its IDENT_LOAD, is the model's choice of log 6. -/
def Obligations.HandoffStartsTheApplication : Prop :=
  ∀ s : State, s.mode = .bootloader → s.phase = .handoffToApplication →
    ∃ t u, exec .blHandoff s = .next t ∧ exec (.identLoad s.params.baseUidApp) s = .next u
      ∧ t = { s with
          ivtSelect := .app, mode := .application, phase := .idle, session := t.session, ident := u.ident
          out := { s.out with appStart := true }
          cfgPending := false, cfgEmitActive := false, waiting := false, freeCount := t.freeCount }

/-- R165: with `TIMEOUT_EN = false` a receiver that no matching frame reaches stays in its wait for ever and sends nothing and commits
nothing, however long other frames arrive or are lost, the timer expires, and the agent is given images and takes turns in which it
answers no request (an answer is a matching frame, R193). Only reset is left out, which ends the wait. -/
def Obligations.WaitWithoutReplyNeverEnds : Prop :=
  ∀ (n : Nat) (s : State), s.params.timeoutEn = false → s.mode = .bootloader → s.phase = .streaming → s.waiting = true →
    (∀ w ∈ s.rxQueue, w.wf = true ∧ w.answersWait = false) → (∀ e ∈ s.env.inputs.take n, e.withoutReply) →
    (∀ k u, k < n → core.run k s = .next u → u.nextEvent = .agent → u.agServeEnabled = false) →
    ∃ t, core.run n s = .next t ∧ t.mode = .bootloader ∧ t.phase = .streaming ∧ t.waiting = true
      ∧ t.out.trace = s.out.trace ∧ t.mem = s.mem ∧ t.session = s.session

/-! ## FlashPager -/

/-- R181: PAGE_COMMIT writes the whole buffer to page `pageIndex`, whatever `writeCursor` is, empties the buffer and goes to the next
page; every byte outside the page and every other register is unchanged. -/
def Obligations.CommitWritesTheWholePage : Prop :=
  ∀ s : State, s.mem.wf = true → s.session.pageBuffer.length = s.params.pageSize → s.session.pageIndex < s.params.numPages →
    ∃ m : Memory,
      exec .pageCommit s = .next { s with
        mem := m
        session := { s.session with
          pageBuffer := List.replicate s.params.pageSize 0xFF, pageIndex := s.session.pageIndex + 1, writeCursor := 0 } }
      ∧ (∀ i, i < s.params.pageSize →
          m.read .flash (s.params.flashAppBase + s.session.pageIndex * s.params.pageSize + i) = s.session.pageBuffer[i]?)
      ∧ sameMemoryOutside s.mem m .flash (s.params.flashAppBase + s.session.pageIndex * s.params.pageSize) s.params.pageSize

/-- R186: a commit beyond the last page writes nothing and stops the receiver; the page stays as it is, unless it is full, when it is
emptied as R22, R163 and R184 need it, and `parserState` is not `Finished`, as R22 needs it (both the model's reading of log 22).
PAGE_RANGE_STOP does the same, and is enabled in this case only: elsewhere the model answers the row with a refusal (log 16). -/
def Obligations.CommitBeyondTheLastPageStops : Prop :=
  ∀ s : State,
    let stopped (x : TransferSession) : State := { s with
      phase := .halted, out := { s.out with label := some .pageRangeStop }, session := { x with parserState := .streaming } }
    let emptied : TransferSession := { s.session with pageBuffer := List.replicate s.params.pageSize 0xFF, writeCursor := 0 }
    (s.params.numPages ≤ s.session.pageIndex → s.session.writeCursor < s.params.pageSize →
      exec .pageCommit s = .next (stopped s.session) ∧ exec .pageRangeStop s = .next (stopped s.session))
    ∧ (s.params.numPages ≤ s.session.pageIndex → s.params.pageSize ≤ s.session.writeCursor →
      exec .pageCommit s = .next (stopped emptied) ∧ exec .pageRangeStop s = .next (stopped emptied))
    ∧ (s.session.pageIndex < s.params.numPages → exec .pageRangeStop s = .refused .notEnabled)

/-! ## Outbound frames -/

/-- Each outbound row of the block sends the frame its row describes and changes nothing but `tx`, `TX` and the bus (30_encoding.md
section 4; the operand hash is log 14's). -/
def Obligations.OutboundRowsSendTheirFrame : Prop :=
  ∀ (h : Hash) (u : UidBytes) (a : Address) (x y : Byte) (d : BitVec 16) (row : List Byte) (s : State),
    exec (.pingReply h u x y d) s = .next (s.withSent 0x018 0x0031#13 h
        [u.b0, u.b1, u.b2, u.b3, x, y, d.extractLsb' 8 8, d.extractLsb' 0 8])
    ∧ exec (.configStatusDescriptor h row) s = .next (s.withSent 0x01D 0x003B#13 h row)
    ∧ exec (.configStatusTerminator h x y) s = .next (s.withSent 0x01D 0x003B#13 h [x, y])
    ∧ exec (.appAnswerBoardnumAnswer h a) s = .next (s.withSent 0x053 0x00A7#13 h [1, a.hi, a.lo])
    ∧ exec (.appAnswerBoardnumChange h a) s = .next (s.withSent 0x053 0x00A7#13 h [2, a.hi, a.lo])
    ∧ exec (.appAnswerGoBtldr h a) s = .next (s.withSent 0x053 0x00A7#13 h [3, a.hi, a.lo])
    ∧ exec (.btldrAnswerStartData h) s = .next (s.withSent 0x051 0x00A3#13 h [4])
    ∧ exec (.btldrAnswerMoreData h) s = .next (s.withSent 0x051 0x00A3#13 h [5])

/-! ## UpdateAgent -/

/-- R192: an idle agent that receives START_DATA becomes ready from the first byte and sends nothing (its inbox is log 18's). -/
def Obligations.AgentStartsOnAnnouncement : Prop :=
  ∀ (h : Hash) (p : List Byte) (rest : List WireFrame) (s : State),
    s.agent.phase = .agIdle → s.agent.inbox = wire 0x00A3#13 h (4 :: p) :: rest →
    exec .agStart s = .next { s with agent := { s.agent with pos := 0, phase := .agServing, inbox := rest } }

/-- R193, R194: a serving agent answers a MORE_DATA request with exactly one frame: the next `min(AGENT_CHUNK, L − pos)` bytes while there
are any, then END_DATA. That the request leaves the agent's inbox and the frame goes to the node's transceiver is log 18's reading of
60_exceptions.md section 4. -/
def Obligations.AgentAnswersOneFramePerRequest : Prop :=
  ∀ (h : Hash) (p : List Byte) (rest : List WireFrame) (s : State),
    s.agent.phase = .agServing → s.agent.inbox = wire 0x00A3#13 h (5 :: p) :: rest →
    (s.agent.pos < s.agent.image.length →
      let n := min s.params.agentChunk (s.agent.image.length - s.agent.pos)
      let f := wire 0x00A2#13 s.agent.hash
        (5 :: (s.agent.image.drop s.agent.pos).take n ++ (if s.params.chunkCursorStart = 1 then [0x00] else []))
      exec .agServe s = .next { s with
        agent := { s.agent with pos := s.agent.pos + n, inbox := rest, trace := s.agent.trace ++ [f] }, rxQueue := s.rxQueue ++ [f] })
    ∧ (s.agent.image.length ≤ s.agent.pos →
      let f := wire 0x00A2#13 s.agent.hash [6]
      exec .agServe s = .next { s with
        agent := { s.agent with phase := .agDone, inbox := rest, trace := s.agent.trace ++ [f] }, rxQueue := s.rxQueue ++ [f] })

/-- The agent's frames as the opcode table and R73 write them, a data frame without data and a longer end frame included, go on the bus to
the node's transceiver (46_update_agent.md; log 18; address bytes that are not digits: log 35). -/
def Obligations.AgentFramesReachTheNode : Prop :=
  ∀ (h : Hash) (y z : Address) (r : List Byte) (s : State),
    let sent (f : WireFrame) : State := { s with agent := { s.agent with trace := s.agent.trace ++ [f] }, rxQueue := s.rxQueue ++ [f] }
    exec (.agentForAppRequest h (.boardnumRequest y)) s = .next (sent (wire 0x00A4#13 h [0, y.hi, y.lo]))
    ∧ exec (.agentForAppRequest h (.goBtldr y)) s = .next (sent (wire 0x00A4#13 h [3, y.hi, y.lo]))
    ∧ exec (.agentForAppRequest h (.boardnumChange y z)) s = .next (sent (wire 0x00A4#13 h [2, y.hi, y.lo, z.hi, z.lo]))
    ∧ exec (.agentDataFrame h r) s = .next (sent (wire 0x00A2#13 h (5 :: r)))
    ∧ exec (.agentEndFrame ⟨h, r⟩) s = .next (sent (wire 0x00A2#13 h (6 :: r)))

/-- R194: DATA_FRAME answers a frame of the agent that makes the receiver's LOAD_CHUNK deliver exactly its bytes. For numbers of bytes
the rule gives no payload for it answers a frame of the same header with some payload of at most eight bytes (the model's choice of
log 30). -/
def Obligations.DataFrameDeliversItsBytes : Prop :=
  ∀ (d : List Byte) (s : State), s.session.localChunk.length = 7 →
    (1 ≤ d.length → d.length + s.params.chunkCursorStart.val ≤ 7 →
      let f : CanFrame := ⟨0x051, false, s.agent.hash, 5 :: d ++ (if s.params.chunkCursorStart = 1 then [0x00] else [])⟩
      exec (.dataFrame d) s = .next { s with out := { s.out with returned := .frame f } }
        ∧ f.payload.length ≤ 8
        ∧ ∃ t, exec .loadChunk { s with rx := f } = .next t ∧ t.chunkLeft = d)
    ∧ ((d.length = 0 ∨ 7 < d.length + s.params.chunkCursorStart.val) → ∃ p : List Byte, p.length ≤ 8
        ∧ exec (.dataFrame d) s = .next { s with out := { s.out with returned := .frame ⟨0x051, false, s.agent.hash, p⟩ } })

/-- AG_BUILD_REQUEST answers the encoded request to the board asked for (46_update_agent.md, which speaks of two-digit addresses; that
bytes which are not digits give a frame of the same form is the model's choice of log 35). -/
def Obligations.BuildRequestAddressesTheBoard : Prop :=
  ∀ (y z : Address) (s : State),
    let answers (f : WireFrame) : Host.Outcome State Fault Refusal := .next { s with out := { s.out with returned := .wire f } }
    exec (.agBuildRequest (.boardnumRequest y)) s = answers (wire 0x00A4#13 s.agent.hash [0, y.hi, y.lo])
    ∧ exec (.agBuildRequest (.goBtldr y)) s = answers (wire 0x00A4#13 s.agent.hash [3, y.hi, y.lo])
    ∧ exec (.agBuildRequest (.boardnumChange y z)) s = answers (wire 0x00A4#13 s.agent.hash [2, y.hi, y.lo, z.hi, z.lo])

/-- R198: AG_INTERPRET answers by byte 0 of an APP_ANSWER response that carries the board's address, and `NotForMe` otherwise. -/
def Obligations.InterpretReadsTheAnswer : Prop :=
  ∀ (f : CanFrame) (y : Address) (s : State), ∃ a : Answer,
    exec (.agInterpret f y) s = .next { s with out := { s.out with returned := .answer a } }
    ∧ (a = .boardNumber y ↔ f.command = 0x053 ∧ f.responseFlag = true ∧ f.payload.take 3 = [1, y.hi, y.lo])
    ∧ (a = .changeAcknowledged y ↔ f.command = 0x053 ∧ f.responseFlag = true ∧ f.payload.take 3 = [2, y.hi, y.lo])
    ∧ (a = .bootloaderEntered ↔ f.command = 0x053 ∧ f.responseFlag = true ∧ f.payload.take 3 = [3, y.hi, y.lo])
    ∧ (a = .notForMe ∨ a = .boardNumber y ∨ a = .changeAcknowledged y ∨ a = .bootloaderEntered)

/-! ## Reset -/

/-- R230: RESET sets the registers its rule lists, the identity with `BASE_UID_APP` from the bytes NV holds, and an empty `TX`; NV and
FLASH are unchanged; the other registers are left open; what lies outside the node stays (log 20). That it completes on stored bytes
that are not digits, where R101 says a model refuses its IDENT_LOAD, is the model's choice of log 6. -/
def Obligations.ResetRestoresTheListedRegisters : Prop :=
  ∀ s : State, ∃ t u, exec .reset s = .next t ∧ exec (.identLoad s.params.baseUidApp) s = .next u
    ∧ t = { s with
        mode := .application, ivtSelect := .app, phase := .idle, waiting := false, cfgPending := false, cfgEmitActive := false
        ident := u.ident, out := { s.out with trace := [] }
        rx := t.rx, tx := t.tx, cfgIndex := t.cfgIndex, cfgEmitIndex := t.cfgEmitIndex, cfgEmitPos := t.cfgEmitPos
        session := t.session, freeCount := t.freeCount }

/-- The machine after reset: the values R26 gives, and the identity of board "00" (the model's choices of log 1 and log 2). -/
def Obligations.ResetStateHasTheGivenValues : Prop :=
  State.reset.mode = .application ∧ State.reset.ivtSelect = .app ∧ State.reset.phase = .idle ∧ State.reset.waiting = false
    ∧ State.reset.cfgPending = false ∧ State.reset.cfgEmitActive = false ∧ State.reset.out.trace = []
    ∧ State.reset.ident = ⟨⟨0x30, 0x30⟩, 0x50091900, ⟨0x50, 0x09, 0x19, 0x00⟩, 0x4B09⟩

/-! ## Steps -/

/-- A step runs the decoded instruction: in the node's turn the oldest frame is taken from the transceiver and `exec` runs what it decodes
to for the router, or for the waiting receiver when no timeout competes; one-step outputs are cleared and the event is taken from the
script before (the model's conventions of logs 7 and 21). At another event a step does what the event says. A frame that arrives is the
youngest of the transceiver and of the agent's inbox (60_exceptions.md section 4; log 18), one of more than eight bytes is refused
(log 12); frames may be lost; the timer's level is taken over (log 8); reset runs RESET; the agent's turn runs AG_START or AG_SERVE where
enabled and otherwise takes a frame and ignores it; the agent is given an image (log 28); a call runs its row where a collaborator may
call it (log 14) and does nothing elsewhere. -/
def Obligations.StepRunsTheDecodedFrame : Prop :=
  ∀ s : State,
    (∀ (w : WireFrame) (rest : List WireFrame) (i : Instr), s.nextEvent = .node → s.rxQueue = w :: rest →
      (s.mode = .application → decode .router w = .instr i → step s = exec i { s.atTurn with rxQueue := rest })
        ∧ (s.reception = .poll → s.blTimeoutEnabled = false → decode .poll w = .instr i →
            step s = exec i { s.atTurn with rxQueue := rest }))
    ∧ (∀ w, s.nextEvent = .arrive w →
        (w.wf = true → step s = .next { s.atTurn with
          rxQueue := s.rxQueue ++ [w], agent := { s.agent with inbox := s.agent.inbox ++ [w] } })
        ∧ (w.wf = false → step s = .refused .frameTooLong))
    ∧ (∀ k, s.nextEvent = .lose k → step s = .next { s.atTurn with rxQueue := s.rxQueue.eraseIdx k })
    ∧ (∀ e f, s.nextEvent = .timer e f →
        step s = .next { s.atTurn with env := { s.atTurn.env with timeoutExpired := e, timeoutFirst := f } })
    ∧ (s.nextEvent = .reset → step s = exec .reset s.atTurn)
    ∧ (s.nextEvent = .agent →
        (s.agStartEnabled = true → step s = exec .agStart s.atTurn)
        ∧ (s.agServeEnabled = true → step s = exec .agServe s.atTurn)
        ∧ (s.agStartEnabled = false → s.agServeEnabled = false →
            step s = .next { s.atTurn with agent := { s.agent with inbox := s.agent.inbox.drop 1 } }))
    ∧ (∀ k, s.nextEvent = .agentLose k →
        step s = .next { s.atTurn with agent := { s.agent with inbox := s.agent.inbox.eraseIdx k } })
    ∧ (∀ image, s.nextEvent = .agentImage image →
        step s = .next { s.atTurn with agent := { s.agent with image := image, pos := 0, phase := .agIdle } })
    ∧ (∀ i, s.nextEvent = .call i →
        (callable i = true → (i.context = some .transmit → s.mode = .application) → callFits i = true → step s = exec i s.atTurn)
        ∧ ((callable i = false ∨ (i.context = some .transmit ∧ s.mode = .bootloader)) → step s = .next s.atTurn))

/-- R151: in Bootloader mode the node's turn takes the one enabled step of the table; with a frame and a timeout either may be taken (the
field `timeoutFirst`, log 8); with neither the wait stays; `Halted` has no step, which the model treats as a fault (R173). -/
def Obligations.BootloaderStepIsTheEnabledOne : Prop :=
  ∀ s : State, s.nextEvent = .node → s.mode = .bootloader →
    (s.phase = .awaitingStart → step s = exec .blAnnounce s.atTurn)
    ∧ (s.phase = .streaming → s.waiting = false → s.session.chunkLimit < s.session.chunkCursor → step s = exec .blRequest s.atTurn)
    ∧ (s.phase = .streaming → s.waiting = false → s.session.chunkCursor ≤ s.session.chunkLimit → step s = exec .blPull s.atTurn)
    ∧ (s.phase = .streaming → s.waiting = true →
        let timeout := s.params.timeoutEn = true ∧ s.env.timeoutExpired = true
        ((∃ w ∈ s.rxQueue.head?, w.wf = true) → (¬ timeout ∨ s.env.timeoutFirst = false) → step s = exec .blPoll s.atTurn)
        ∧ (timeout → (s.rxQueue = [] ∨ s.env.timeoutFirst = true) → step s = exec .blTimeout s.atTurn)
        ∧ (¬ timeout → s.rxQueue = [] → step s = .next s.atTurn))
    ∧ (s.phase = .finished → step s = exec .blFinish s.atTurn)
    ∧ (s.phase = .handoffToApplication → step s = exec .blHandoff s.atTurn)
    ∧ (s.phase = .halted → step s = .fault .halted)

/-- In Application mode an available frame comes first, then the emission, then the drain; with none of them the node rests
(60_exceptions.md section 2; 43_config_stream.md; 70_reset_and_hazards.md section 1). -/
def Obligations.ApplicationStepPriority : Prop :=
  ∀ s : State, s.nextEvent = .node → s.mode = .application →
    ((∃ w ∈ s.rxQueue.head?, w.wf = true) → step s = exec .rxDispatch s.atTurn)
    ∧ (s.rxQueue = [] → s.cfgEmitActive = true → step s = exec .cfgEmitStep s.atTurn)
    ∧ (s.rxQueue = [] → s.cfgEmitActive = false → s.cfgPending = true → step s = exec .cfgDrain s.atTurn)
    ∧ (s.rxQueue = [] → s.cfgEmitActive = false → s.cfgPending = false → step s = .next s.atTurn)

/-- Ordinary data never stops the machine: from a state of the invariant, with events within the spec's bounds, a step answers a next
state, except in the node's turn of a halted receiver, which is a fault (log 9). That a turn without an enabled step rests is log 10's,
and that GO_BTLDR, the handoff and reset answer on stored bytes that are not digits, where R101 and R236 say a model refuses, is the
model's choice of log 6. -/
def Obligations.StepAnswersUnlessHalted : Prop :=
  ∀ s : State, s.Inv → s.nextEvent.withinBounds →
    s.safe ∨ (s.nextEvent = .node ∧ s.mode = .bootloader ∧ s.phase = .halted ∧ step s = .fault .halted)

/-- Only reset leaves `Halted` (44_update_receiver.md section 7; 70_reset_and_hazards.md section 3): any other step that answers keeps
mode and phase. -/
def Obligations.OnlyResetLeavesHalted : Prop :=
  ∀ s t : State, s.mode = .bootloader → s.phase = .halted → step s = .next t →
    (s.nextEvent = .reset ∧ t.mode = .application ∧ t.phase = .idle)
      ∨ (s.nextEvent ≠ .reset ∧ t.mode = .bootloader ∧ t.phase = .halted)

/-! ## Invariants and whole-machine rules -/

/-- The invariant holds after reset. It speaks of the one state `State.reset`: the example parameters (log 1), a storage that lists nothing
(log 2), and the chosen `rx` and `tx` (log 4), of which it needs that they hold at most eight bytes. -/
def Obligations.InvariantAtReset : Prop := State.reset.Inv

/-- Every step keeps the invariant: the parameters and the canonical memories, the identity registers current for the running role, the
sequencing registers legal, the emission within its table, the session as R22 says it is (after a timeout and in `Halted` by the reading
of log 22), no frame longer than eight bytes. On stored bytes that are not digits the identity is current with some UID (log 6). -/
def Obligations.StepKeepsTheInvariant : Prop := ∀ s t : State, s.Inv → step s = .next t → t.Inv

/-- FLASH is written in Bootloader mode only, and NV in Application mode only (60_exceptions.md section 3); reset writes neither. -/
def Obligations.EachModeWritesItsMemoryOnly : Prop :=
  ∀ s t : State, step s = .next t →
    (s.mode = .application → ∀ a, t.mem.read .flash a = s.mem.read .flash a)
      ∧ (s.mode = .bootloader → ∀ a, t.mem.read .nv a = s.mem.read .nv a)
      ∧ (s.nextEvent ≠ .node → t.mem = s.mem)

/-- The mode changes only by GO_BTLDR addressed to this node, by BL_HANDOFF, and by reset (60_exceptions.md section 3). -/
def Obligations.ModeChangesOnlyWhereSpecified : Prop :=
  ∀ s t : State, step s = .next t →
    (s.mode = .application → t.mode = .bootloader →
      s.nextEvent = .node ∧ ∃ h r, s.rxQueue.head? = some (wire 0x00A4#13 h (3 :: s.ident.address.hi :: s.ident.address.lo :: r)))
    ∧ (s.mode = .bootloader → t.mode = .application →
      s.nextEvent = .reset ∨ (s.nextEvent = .node ∧ s.phase = .handoffToApplication))

/-- In its turn the node sends at most one frame, extended, a response, with its own hash as it stands at the send (42_command_router.md
section 1; 30_encoding.md section 3). Turns that pulse the hook are among them: that nothing is sent there treats the hook as doing
nothing, the model's choice of log 27. -/
def Obligations.NodeSendsAtMostOneFrameUnderItsHash : Prop :=
  ∀ s t : State, s.nextEvent = .node → step s = .next t →
    t.out.trace = s.out.trace
      ∨ ∃ w, t.out.trace = s.out.trace ++ [w] ∧ w.ext = true ∧ w.id.extractLsb' 0 16 = s.ident.hash ∧ w.id.getLsbD 16 = true

/-! ## Encoding -/

/-- Every well-formed frame row decodes, in its own context, from its encoding. -/
def Obligations.DecodeOfEncodeIsTheInstruction : Prop :=
  ∀ (i : Instr) (c : Context) (w : WireFrame), i.wf = true → i.context = some c → encode i = some w → decode c w = .instr i

/-- Every frame has one reading in a context: what it decodes to is well formed, belongs to the context and encodes to the frame. -/
def Obligations.EncodeOfDecodeIsTheFrame : Prop :=
  ∀ (i : Instr) (c : Context) (w : WireFrame), decode c w = .instr i → i.wf = true ∧ i.context = some c ∧ encode i = some w

/-- A few words of the spec's vectors decode to the instruction they stand for. -/
def Obligations.SpecWordsDecode : Prop :=
  decode .router ⟨0x00304710, true, []⟩ = .instr (.ping 0x4710 [])
    ∧ decode .router ⟨0x00A44710, true, [0x02, 0x30, 0x30, 0x31, 0x32]⟩ = .instr (.forAppBoardnumChange 0x4710 [0x30, 0x30, 0x31, 0x32])
    ∧ decode .poll ⟨0x00A24710, true, [0x05, 0xAA, 0x00]⟩ = .instr (.btldrAnswerData 0x4710 [0xAA, 0x00])
    ∧ decode .transmit ⟨0x00A34B09, true, [0x04]⟩ = .instr (.btldrAnswerStartData 0x4B09)
    ∧ decode .agentTransmit ⟨0x00A44710, true, [0x03, 0x30, 0x30]⟩ = .instr (.agentForAppRequest 0x4710 (.goBtldr ⟨0x30, 0x30⟩))
    ∧ decode .router ⟨0x10304B09, true, []⟩ = .instr (.hook 0x818 0x4B09 [])

/-! ## A whole transfer -/

/-- While only the node and the well-behaved agent move, every step keeps the relation between a transfer and its image (the node's turn
at the handoff itself, which ends the transfer, apart). -/
def Obligations.StepKeepsTheTransfer : Prop :=
  ∀ (image : List Byte) (m : Memory) (s t : State), s.Inv → s.transferring image m → (s.nextEvent = .node ∨ s.nextEvent = .agent) →
    ¬ (s.nextEvent = .node ∧ s.phase = .handoffToApplication) → step s = .next t → t.transferring image m

/-- R185: however the turns of the node and of the well-behaved agent interleave, when a transfer reaches the handoff FLASH holds the
image, then `0xFF` to the end of its last page, and elsewhere what it held. -/
def Obligations.FinishedTransferLeavesTheImage : Prop :=
  ∀ (image : List Byte) (s t : State) (n : Nat), s.transferBegins image →
    (∀ e ∈ s.env.inputs.take n, e = .node ∨ e = .agent) → n ≤ s.env.inputs.length → core.run n s = .next t →
    t.mode = .bootloader → t.phase = .handoffToApplication →
    let pages := image.length / s.params.pageSize + 1
    t.session.pageIndex = pages ∧ pages ≤ s.params.numPages
      ∧ (∀ k, k < image.length → t.mem.read .flash (s.params.flashAppBase + k) = image[k]?)
      ∧ (∀ k, image.length ≤ k → k < pages * s.params.pageSize → t.mem.read .flash (s.params.flashAppBase + k) = some 0xFF)
      ∧ ∀ a, a < s.params.flashAppBase ∨ s.params.flashAppBase + pages * s.params.pageSize ≤ a →
          t.mem.read .flash a = s.mem.read .flash a

/-- Every image that fits is transferred (44_update_receiver.md section 7, the counts; 45_flash_pager.md, the largest image): with the
right turns of the node and of the well-behaved agent (logs 7 and 18) the transfer reaches the handoff, the receiver having sent one
START_DATA and then a MORE_DATA for each of the `ceil(L / AGENT_CHUNK)` data frames and for the end frame. -/
def Obligations.FittingImageReachesTheHandoff : Prop :=
  ∀ (image : List Byte) (s : State), s.transferBegins image → image.length / s.params.pageSize < s.params.numPages →
    ∃ (turns : List Event) (t : State), (∀ e ∈ turns, e = .node ∨ e = .agent)
      ∧ core.run turns.length { s with env := { s.env with inputs := turns } } = .next t
      ∧ t.mode = .bootloader ∧ t.phase = .handoffToApplication
      ∧ t.out.trace = s.out.trace ++ wire 0x00A3#13 s.ident.hash [4] ::
          List.replicate ((image.length + s.params.agentChunk - 1) / s.params.agentChunk + 1) (wire 0x00A3#13 s.ident.hash [5])
end

