-- ==== Sys2Proof/Laws/Codec.lean ====
section
/-! SUPPORT. The codec's spec lemmas: the identifier is command, response flag and hash side by side. -/

namespace Sys2Proof

/-- `ENCODE`'s identifier (R90): `command ++ responseFlag ++ hash`. -/
theorem encodeFrame_id (f : CanFrame) : (encodeFrame f).id = f.command ++ BitVec.ofBool f.responseFlag ++ f.hash := by
  apply BitVec.eq_of_getLsbD_eq
  intro i hi
  simp only [encodeFrame]
  have hm : (1#29 <<< 16).getLsbD i = decide (i = 16) := by
    simp only [BitVec.getLsbD_shiftLeft, BitVec.getLsbD_one]
    by_cases h : i = 16
    · subst h; decide
    · simp only [h, decide_false]
      by_cases h' : i < 16
      · simp [h']
      · have : i - 16 ≠ 0 := by omega
        simp [this]
  cases hr : f.responseFlag <;>
    simp only [Bool.false_eq_true, ↓reduceIte, BitVec.getLsbD_and, BitVec.getLsbD_or, BitVec.getLsbD_not, hm,
      BitVec.getLsbD_shiftLeft, BitVec.getLsbD_setWidth, BitVec.getLsbD_append, BitVec.getLsbD_ofBool, hi, decide_true, Bool.true_and] <;>
    by_cases h1 : i < 16
  · have : i ≠ 16 := by omega
    have : i < 17 := by omega
    simp_all
  · by_cases h2 : i = 16
    · subst h2; simp
    · have : ¬ i < 17 := by omega
      have h3 : f.hash.getLsbD i = false := BitVec.getLsbD_of_ge _ _ (by omega)
      have : i - 16 ≠ 0 := by omega
      have : i - 17 < 29 := by omega
      simp_all [show ¬ (i - 16 < 1) by omega, show i - 16 - 1 = i - 17 by omega]
      simp [show ¬ i < 17 by omega, show ¬ i < 16 by omega]
  · have : i ≠ 16 := by omega
    have : i < 17 := by omega
    simp_all
  · by_cases h2 : i = 16
    · subst h2; simp
    · have : ¬ i < 17 := by omega
      have h3 : f.hash.getLsbD i = false := BitVec.getLsbD_of_ge _ _ (by omega)
      have : i - 16 ≠ 0 := by omega
      have : i - 17 < 29 := by omega
      simp_all [show ¬ (i - 16 < 1) by omega, show i - 16 - 1 = i - 17 by omega]
      simp [show ¬ i < 17 by omega, show ¬ i < 16 by omega]

@[simp] theorem encodeFrame_ext (f : CanFrame) : (encodeFrame f).ext = true := rfl
@[simp] theorem encodeFrame_payload (f : CanFrame) : (encodeFrame f).payload = f.payload := rfl
@[simp] theorem decodeFrame_payload (id : WireId) (p : List Byte) : (decodeFrame id p).payload = p := rfl

/-- `ENCODE` as the opcode table writes a frame. -/
theorem encodeFrame_eq_wire (c : Command) (r : Bool) (h : Hash) (p : List Byte) :
    encodeFrame ⟨c, r, h, p⟩ = Machine.wire (c ++ BitVec.ofBool r) h p := by
  cases hw : encodeFrame ⟨c, r, h, p⟩ with
  | mk id ext payload =>
    have h1 := encodeFrame_id ⟨c, r, h, p⟩
    have h2 := encodeFrame_ext ⟨c, r, h, p⟩
    have h3 := encodeFrame_payload ⟨c, r, h, p⟩
    rw [hw] at h1 h2 h3
    simp only at h1 h2 h3
    rw [h1, h2, h3]
    rfl

/-- `DECODE` by slices (R92). -/
theorem decodeFrame_eq (id : WireId) (p : List Byte) :
    decodeFrame id p = ⟨id.extractLsb' 17 12, id.getLsbD 16, id.extractLsb' 0 16, p⟩ := by
  simp only [decodeFrame, CanFrame.mk.injEq, and_true]
  refine ⟨?_, trivial, ?_⟩
  · apply BitVec.eq_of_getLsbD_eq
    intro i hi
    simp only [BitVec.getLsbD_setWidth, BitVec.getLsbD_extractLsb', BitVec.getLsbD_ushiftRight, hi, decide_true, Bool.true_and]
  · apply BitVec.eq_of_getLsbD_eq
    intro i hi
    simp only [BitVec.getLsbD_setWidth, BitVec.getLsbD_extractLsb', hi, decide_true, Bool.true_and, Nat.zero_add]

/-- `DECODE` of the three fields side by side. -/
theorem decodeFrame_append (c : Command) (r : Bool) (h : Hash) (p : List Byte) :
    decodeFrame (c ++ BitVec.ofBool r ++ h) p = ⟨c, r, h, p⟩ := by
  rw [decodeFrame_eq]
  simp only [CanFrame.mk.injEq, and_true]
  refine ⟨?_, ?_, ?_⟩
  · apply BitVec.eq_of_getLsbD_eq
    intro i hi
    simp only [BitVec.getLsbD_extractLsb', BitVec.getLsbD_append, hi, show ¬ 17 + i < 16 by omega,
      show 17 + i - 16 = i + 1 by omega, show ¬ i + 1 < 1 by omega, Nat.add_sub_cancel, decide_true, if_false,
      Bool.true_and]
  · simp only [BitVec.getLsbD_append]
    cases r <;> rfl
  · apply BitVec.eq_of_getLsbD_eq
    intro i hi
    simp only [BitVec.getLsbD_extractLsb', BitVec.getLsbD_append, hi, decide_true, if_true, Bool.true_and, Nat.zero_add]

/-- The identifier is its three decoded fields side by side (R94). -/
theorem append_decodeFrame (id : WireId) (p : List Byte) :
    (decodeFrame id p).command ++ BitVec.ofBool (decodeFrame id p).responseFlag ++ (decodeFrame id p).hash = id := by
  rw [decodeFrame_eq]
  apply BitVec.eq_of_getLsbD_eq
  intro i hi
  simp only [BitVec.getLsbD_append, BitVec.getLsbD_extractLsb', BitVec.getLsbD_ofBool]
  by_cases h1 : i < 16
  · simp [h1]
  · by_cases h2 : i = 16
    · subst h2; simp
    · simp [h1, show ¬ i - 16 < 1 by omega, show i - 16 - 1 < 12 by omega, show 17 + (i - 16 - 1) = i by omega]

/-- `DECODE` after `ENCODE` (R93), for callers that meet the pair inside a step. -/
@[simp] theorem decodeFrame_wire (c : Command) (r : Bool) (h : Hash) (p q : List Byte) :
    decodeFrame (Machine.wire (c ++ BitVec.ofBool r) h p).id q = ⟨c, r, h, q⟩ := decodeFrame_append c r h q

/-- `Send` of a logical frame, in the words claims use. -/
theorem send_eq_withSent (s : Machine.State) (c : Command) (r : Bool) (h : Hash) (p : List Byte) :
    s.send ⟨c, r, h, p⟩ = s.withSent c (c ++ BitVec.ofBool r) h p := by
  have h0 : (c ++ BitVec.ofBool r : BitVec 13).getLsbD 0 = r := by
    simp only [BitVec.getLsbD_append]
    cases r <;> rfl
  simp only [Machine.State.send, Machine.State.withSent, encodeFrame_eq_wire, h0]

end Sys2Proof
end

