-- ==== Sys2Proof/Laws/Decode.lean ====
section
/-! SUPPORT. The decoder on encoded frames: every wire frame is a standard frame or an encoded logical one, and each context's decoder
says which instruction the logical one is. -/

namespace Sys2Proof

/-- `DECODE` on an encoded identifier, with any payload. -/
theorem decodeFrame_of_encoded (c : Command) (r : Bool) (h : Hash) (p q : List Byte) :
    decodeFrame (encodeFrame ⟨c, r, h, p⟩).id q = ⟨c, r, h, q⟩ := by
  rw [encodeFrame_eq_wire]
  exact decodeFrame_append c r h q

/-- `ENCODE` on a decoded frame, as far as the identifier goes (R94). -/
theorem encodeFrame_of_decoded (id : WireId) (p : List Byte) : encodeFrame (decodeFrame id p) = ⟨id, true, p⟩ := by
  have h := append_decodeFrame id p
  show encodeFrame ⟨(decodeFrame id p).command, (decodeFrame id p).responseFlag, (decodeFrame id p).hash, p⟩ = _
  rw [encodeFrame_eq_wire, Machine.wire, h]

/-- A wire frame is a standard frame or the encoding of a logical frame. -/
theorem wireFrame_cases (w : WireFrame) : w.ext = false ∨ ∃ c r h p, w = encodeFrame ⟨c, r, h, p⟩ := by
  rcases w with ⟨id, _ | _, p⟩
  · exact .inl rfl
  · exact .inr ⟨_, _, _, _, (encodeFrame_of_decoded id p).symm⟩

/-- The two halves of a device type put together again (R67). -/
theorem append_extract_halves (d : BitVec 16) : (BitVec.extractLsb' 8 8 d ++ BitVec.extractLsb' 0 8 d : BitVec 16) = d := by
  apply BitVec.eq_of_getLsbD_eq
  intro i hi
  have h := BitVec.getLsbD_append (x := BitVec.extractLsb' 8 8 d) (y := BitVec.extractLsb' 0 8 d) (i := i)
  refine Eq.trans h ?_
  simp only [BitVec.getLsbD_extractLsb']
  by_cases h8 : i < 8
  · simp [h8]
  · simp only [h8, if_false, show i - 8 < 8 by omega, decide_true, Bool.true_and]
    congr 1
    omega

/-- The router's decoder by the fields of the frame (R76, first table). -/
theorem decodeRouter_encoded (c : Command) (r : Bool) (h : Hash) (p : List Byte) :
    decodeRouter (encodeFrame ⟨c, r, h, p⟩) =
      if r then .rxResponseDrop c h p
      else if c = cmdPing then .ping h p
      else if c = cmdConfigStatus then .configStatus h p
      else if c = cmdForApp then decodeForApp h p
      else if c = cmdForBtldr then .forBtldr h p
      else .hook c h p := by
  simp [decodeRouter, decodeFrame_of_encoded]

/-- The waiting receiver's decoder by the fields of the frame (R76, second table). -/
theorem decodePoll_encoded (c : Command) (r : Bool) (h : Hash) (p : List Byte) :
    decodePoll (encodeFrame ⟨c, r, h, p⟩) =
      if c = cmdBtldrAnswer ∧ r = false then
        match p with
        | [] => .rxBlDiscard (encodeFrame ⟨c, r, h, p⟩)
        | b :: rest =>
          if b = subMoreData then .btldrAnswerData h rest
          else if b = subEndData then .btldrAnswerEnd h rest
          else .rxBlDiscard (encodeFrame ⟨c, r, h, p⟩)
      else .rxBlDiscard (encodeFrame ⟨c, r, h, p⟩) := by
  cases p <;> simp [decodePoll, decodeFrame_of_encoded]

theorem decode_router_of_wf {w : WireFrame} (h : w.wf = true) : decode .router w = .instr (decodeRouter w) := by
  simp only [WireFrame.wf, decide_eq_true_eq] at h
  simp [decode, show ¬ 8 < w.payload.length by omega]

theorem decode_poll_of_wf {w : WireFrame} (h : w.wf = true) : decode .poll w = .instr (decodePoll w) := by
  simp only [WireFrame.wf, decide_eq_true_eq] at h
  simp [decode, show ¬ 8 < w.payload.length by omega]

/-- The wait's match, written on identifier bits, is the one on the decoded fields (R158). -/
theorem answersWait_encoded (c : Command) (r : Bool) (h : Hash) (p : List Byte) :
    (encodeFrame ⟨c, r, h, p⟩).answersWait = true ↔
      c = cmdBtldrAnswer ∧ r = false ∧ (p.head? = some subMoreData ∨ p.head? = some subEndData) := by
  have hm : ∀ i, i < 29 → (0x1FFF0000#29).getLsbD i = decide (16 ≤ i) := by decide
  have hand : (encodeFrame ⟨c, r, h, p⟩).id &&& 0x1FFF0000#29 = c ++ BitVec.ofBool r ++ 0#16 := by
    rw [encodeFrame_id]
    apply BitVec.eq_of_getLsbD_eq
    intro i hi
    simp only [BitVec.getLsbD_and, BitVec.getLsbD_append, hm i hi]
    by_cases h16 : i < 16
    · simp [h16, show ¬ 16 ≤ i by omega]
    · simp [h16, show 16 ≤ i by omega]
  have hid : (c ++ BitVec.ofBool r ++ 0#16 : WireId) = 0x00A20000#29 ↔ c = cmdBtldrAnswer ∧ r = false := by
    constructor
    · intro e
      have d := decodeFrame_append c r 0#16 []
      rw [e] at d
      have d' : decodeFrame 0x00A20000#29 [] = ⟨0x051, false, 0, []⟩ := by decide
      rw [d'] at d
      cases d
      exact ⟨rfl, rfl⟩
    · rintro ⟨rfl, rfl⟩
      decide
  simp only [WireFrame.answersWait, Bool.and_eq_true, Bool.or_eq_true, beq_iff_eq, hand, hid, encodeFrame_ext, encodeFrame_payload]
  tauto

theorem answersWait_standard {w : WireFrame} (h : w.ext = false) : w.answersWait = false := by
  simp [WireFrame.answersWait, h]

end Sys2Proof
end

