-- ==== Sys2Proof/Laws/Memory.lean ====
section
/-! SUPPORT. The laws of the memories: read after write, and the canonical form is kept by every operation. -/

namespace Sys2Proof.Machine

/-! ## Cells -/

/-- No address below a canonical list's first one is listed. -/
theorem lookup_below {u : Option Byte} {c : Host.Cell} {cs : List Host.Cell} (h : canonical u (c :: cs) = true) {a : Nat}
    (ha : a < c.1) : lookup a (c :: cs) = none := by
  induction cs generalizing c with
  | nil => simp [lookup]; omega
  | cons d ds ih =>
    simp only [canonical, Bool.and_eq_true, decide_eq_true_eq] at h
    have hd : canonical u (d :: ds) = true := by simp [canonical, h.2]
    rw [lookup, if_neg (by omega)]
    exact ih hd (by omega)

theorem canonical_tail {u : Option Byte} {c : Host.Cell} {cs : List Host.Cell} (h : canonical u (c :: cs) = true) :
    canonical u cs = true := by
  simp only [canonical, Bool.and_eq_true] at h
  exact h.2

theorem canonical_cons {u : Option Byte} {c : Host.Cell} {cs : List Host.Cell} :
    canonical u (c :: cs) = true ↔ u ≠ some c.2 ∧ (∀ d ds, cs = d :: ds → c.1 < d.1) ∧ canonical u cs = true := by
  cases cs <;> simp [canonical, and_assoc]

/-- Another address keeps its byte, whatever the list. -/
theorem lookup_put_other {u : Option Byte} {a b : Nat} (h : b ≠ a) (v : Byte) (cs : List Host.Cell) :
    lookup b (put u a v cs) = lookup b cs := by
  induction cs with
  | nil =>
    unfold put
    split
    · rfl
    · simp [lookup, Ne.symm h]
  | cons c cs ih =>
    unfold put
    split
    · simp only [lookup, ih]
    · split
      · rename_i _ heq
        split <;> simp [lookup, heq, Ne.symm h]
      · split <;> simp [lookup, Ne.symm h]

/-- The written address reads as written: listed, or not listed and then the unlisted value is the one written. -/
theorem lookup_put_same {u : Option Byte} {cs : List Host.Cell} (h : canonical u cs = true) (a : Nat) (v : Byte) :
    lookup a (put u a v cs) = if u = some v then none else some v := by
  induction cs with
  | nil => unfold put; split <;> simp [lookup]
  | cons c cs ih =>
    unfold put
    split
    · rw [lookup, if_neg (by omega)]
      exact ih (canonical_tail h)
    · split
      · rename_i _ heq
        split
        · cases cs with
          | nil => rfl
          | cons d ds =>
            exact lookup_below (canonical_tail h) (heq ▸ ((canonical_cons.mp h).2.1 d ds rfl))
        · simp [lookup]
      · split
        · exact lookup_below h (by omega)
        · simp [lookup]

/-- The first address of a list after a write. -/
theorem put_head {u : Option Byte} {a : Nat} {v : Byte} {cs : List Host.Cell} {d : Host.Cell} {ds : List Host.Cell}
    (h : put u a v cs = d :: ds) {k : Nat} (hk : k < a) (hcs : ∀ e es, cs = e :: es → k < e.1)
    (hc : canonical u cs = true) : k < d.1 := by
  cases cs with
  | nil =>
    unfold put at h
    split at h
    · cases h
    · cases h; exact hk
  | cons c cs =>
    have hkc := hcs c cs rfl
    unfold put at h
    split at h
    · cases h; exact hkc
    · split at h
      · split at h
        · subst h
          exact Nat.lt_trans hkc ((canonical_cons.mp hc).2.1 d ds rfl)
        · cases h; exact hk
      · split at h
        · cases h; exact hkc
        · cases h; exact hk

/-- A write keeps the canonical form. -/
theorem canonical_put {u : Option Byte} {cs : List Host.Cell} (h : canonical u cs = true) (a : Nat) (v : Byte) :
    canonical u (put u a v cs) = true := by
  induction cs with
  | nil =>
    unfold put
    split
    · rfl
    · simp_all [canonical]
  | cons c cs ih =>
    obtain ⟨hu, hlt, hc⟩ := canonical_cons.mp h
    unfold put
    split
    · rename_i hca
      exact canonical_cons.mpr ⟨hu, fun d ds hd => put_head hd hca hlt hc, ih hc⟩
    · split
      · rename_i _ heq
        split
        · exact hc
        · rename_i hv
          exact canonical_cons.mpr ⟨hv, fun d ds hd => heq ▸ hlt d ds hd, hc⟩
      · split
        · exact h
        · rename_i hv
          refine canonical_cons.mpr ⟨hv, fun d ds hd => ?_, h⟩
          cases hd
          show a < c.1
          omega

/-! ## Memory -/

@[simp] theorem cells_setCells_same (m : Memory) (cs : List Host.Cell) (sp : Space) : (m.setCells cs sp).cells sp = cs := by
  cases sp <;> rfl

theorem cells_setCells_other (m : Memory) (cs : List Host.Cell) {sp sp' : Space} (h : sp' ≠ sp) :
    (m.setCells cs sp).cells sp' = m.cells sp' := by
  cases sp <;> cases sp' <;> first | rfl | exact absurd rfl h

/-- The canonical form, space by space. -/
theorem memory_wf_iff (m : Memory) : m.wf = true ↔ ∀ sp, canonical (Memory.unlisted sp) (m.cells sp) = true := by
  constructor
  · intro h sp
    simp only [Memory.wf, Bool.and_eq_true] at h
    cases sp
    · exact h.1
    · exact h.2
  · intro h
    simp only [Memory.wf, Bool.and_eq_true]
    exact ⟨h .nv, h .flash⟩

theorem memory_wf_write {m : Memory} (h : m.wf = true) (sp : Space) (a : Nat) (v : Byte) : (m.write sp a v).wf = true := by
  rw [memory_wf_iff] at h ⊢
  intro sp'
  by_cases hs : sp' = sp
  · subst hs
    simpa [Memory.write] using canonical_put (h sp') a v
  · simpa [Memory.write, cells_setCells_other _ _ hs] using h sp'

theorem memory_wf_writeList {m : Memory} (h : m.wf = true) (sp : Space) (a : Nat) (vs : List Byte) :
    (m.writeList sp a vs).wf = true := by
  induction vs generalizing m a with
  | nil => exact h
  | cons v vs ih => exact ih (memory_wf_write h sp a v) (a + 1)

/-- The byte written is the byte read (R42). -/
theorem read_write_same {m : Memory} (h : m.wf = true) (sp : Space) (a : Nat) (v : Byte) : (m.write sp a v).read sp a = some v := by
  have hc := (memory_wf_iff m).mp h sp
  simp only [Memory.read, Memory.write, cells_setCells_same, lookup_put_same hc]
  split <;> simp_all

/-- Every other byte reads as before. -/
theorem read_write_other (m : Memory) {sp sp' : Space} {a b : Nat} (h : sp' ≠ sp ∨ b ≠ a) (v : Byte) :
    (m.write sp a v).read sp' b = m.read sp' b := by
  by_cases hs : sp' = sp
  · subst hs
    have hb : b ≠ a := h.resolve_left (· rfl)
    simp [Memory.read, Memory.write, lookup_put_other hb]
  · simp [Memory.read, Memory.write, cells_setCells_other _ _ hs]

/-- Bytes outside a block write read as before. -/
theorem read_writeList_other (m : Memory) {sp sp' : Space} {a b : Nat} (vs : List Byte)
    (h : sp' ≠ sp ∨ b < a ∨ a + vs.length ≤ b) : (m.writeList sp a vs).read sp' b = m.read sp' b := by
  induction vs generalizing m a with
  | nil => rfl
  | cons v vs ih =>
    rw [Memory.writeList, ih, read_write_other]
    · rcases h with h | h | h
      · exact .inl h
      · exact .inr (by omega)
      · simp only [List.length_cons] at h
        exact .inr (by omega)
    · simp only [List.length_cons] at h
      exact h.imp_right (by omega)

/-- A block write puts byte `k` of the list at `a + k`. -/
theorem read_writeList_inside {m : Memory} (hm : m.wf = true) (sp : Space) (a : Nat) (vs : List Byte) {k : Nat}
    (hk : k < vs.length) : (m.writeList sp a vs).read sp (a + k) = vs[k]? := by
  induction vs generalizing m a k with
  | nil => simp at hk
  | cons v vs ih =>
    rw [Memory.writeList]
    cases k with
    | zero =>
      rw [read_writeList_other _ _ (.inr (.inl (by omega))), Nat.add_zero, read_write_same hm]
      rfl
    | succ k =>
      have := ih (memory_wf_write hm sp a v) (a + 1) (k := k) (by simpa using hk)
      rw [show a + (k + 1) = a + 1 + k by omega, this]
      rfl

/-- NV always has a byte. -/
theorem readNv_eq (m : Memory) (a : Nat) : m.read .nv a = some (m.readNv a) := by
  simp only [Memory.read, Memory.readNv, Memory.cells]
  cases lookup a m.nv <;> rfl

theorem readNv_write_same {m : Memory} (h : m.wf = true) (a : Nat) (v : Byte) : (m.write .nv a v).readNv a = v := by
  have := read_write_same h .nv a v
  rw [readNv_eq] at this
  exact Option.some.inj this

theorem readNv_write_other (m : Memory) {sp : Space} {a b : Nat} (h : .nv ≠ sp ∨ b ≠ a) (v : Byte) :
    (m.write sp a v).readNv b = m.readNv b := by
  have := read_write_other m h v
  rw [readNv_eq, readNv_eq] at this
  exact Option.some.inj this

theorem readNv_writeList_flash (m : Memory) (a b : Nat) (vs : List Byte) : (m.writeList .flash a vs).readNv b = m.readNv b := by
  have := read_writeList_other m (sp := .flash) (sp' := .nv) (a := a) (b := b) vs (.inl (by decide))
  rw [readNv_eq, readNv_eq] at this
  exact Option.some.inj this

end Sys2Proof.Machine
end

