-- ==== Sys2Proof/Laws/State.lean ====
section
/-! SUPPORT. One lemma per field per named operation, true by definition, so that no proof unfolds a record update. -/

namespace Sys2Proof.Machine

/-! ## send -/

@[simp] theorem send_params (s : State) (f : CanFrame) : (s.send f).params = s.params := rfl
@[simp] theorem send_rx (s : State) (f : CanFrame) : (s.send f).rx = s.rx := rfl
@[simp] theorem send_tx (s : State) (f : CanFrame) : (s.send f).tx = f := rfl
@[simp] theorem send_ident (s : State) (f : CanFrame) : (s.send f).ident = s.ident := rfl
@[simp] theorem send_cfgPending (s : State) (f : CanFrame) : (s.send f).cfgPending = s.cfgPending := rfl
@[simp] theorem send_cfgIndex (s : State) (f : CanFrame) : (s.send f).cfgIndex = s.cfgIndex := rfl
@[simp] theorem send_cfgEmitActive (s : State) (f : CanFrame) : (s.send f).cfgEmitActive = s.cfgEmitActive := rfl
@[simp] theorem send_cfgEmitIndex (s : State) (f : CanFrame) : (s.send f).cfgEmitIndex = s.cfgEmitIndex := rfl
@[simp] theorem send_cfgEmitPos (s : State) (f : CanFrame) : (s.send f).cfgEmitPos = s.cfgEmitPos := rfl
@[simp] theorem send_mode (s : State) (f : CanFrame) : (s.send f).mode = s.mode := rfl
@[simp] theorem send_ivtSelect (s : State) (f : CanFrame) : (s.send f).ivtSelect = s.ivtSelect := rfl
@[simp] theorem send_phase (s : State) (f : CanFrame) : (s.send f).phase = s.phase := rfl
@[simp] theorem send_waiting (s : State) (f : CanFrame) : (s.send f).waiting = s.waiting := rfl
@[simp] theorem send_session (s : State) (f : CanFrame) : (s.send f).session = s.session := rfl
@[simp] theorem send_mem (s : State) (f : CanFrame) : (s.send f).mem = s.mem := rfl
@[simp] theorem send_rxQueue (s : State) (f : CanFrame) : (s.send f).rxQueue = s.rxQueue := rfl
@[simp] theorem send_env (s : State) (f : CanFrame) : (s.send f).env = s.env := rfl
@[simp] theorem send_freeCount (s : State) (f : CanFrame) : (s.send f).freeCount = s.freeCount := rfl

/-! ## latchRx -/

@[simp] theorem latchRx_params (s : State) (f : CanFrame) : (s.latchRx f).params = s.params := rfl
@[simp] theorem latchRx_rx (s : State) (f : CanFrame) : (s.latchRx f).rx = f := rfl
@[simp] theorem latchRx_tx (s : State) (f : CanFrame) : (s.latchRx f).tx = s.tx := rfl
@[simp] theorem latchRx_ident (s : State) (f : CanFrame) : (s.latchRx f).ident = s.ident := rfl
@[simp] theorem latchRx_cfgPending (s : State) (f : CanFrame) : (s.latchRx f).cfgPending = s.cfgPending := rfl
@[simp] theorem latchRx_cfgIndex (s : State) (f : CanFrame) : (s.latchRx f).cfgIndex = s.cfgIndex := rfl
@[simp] theorem latchRx_cfgEmitActive (s : State) (f : CanFrame) : (s.latchRx f).cfgEmitActive = s.cfgEmitActive := rfl
@[simp] theorem latchRx_cfgEmitIndex (s : State) (f : CanFrame) : (s.latchRx f).cfgEmitIndex = s.cfgEmitIndex := rfl
@[simp] theorem latchRx_cfgEmitPos (s : State) (f : CanFrame) : (s.latchRx f).cfgEmitPos = s.cfgEmitPos := rfl
@[simp] theorem latchRx_mode (s : State) (f : CanFrame) : (s.latchRx f).mode = s.mode := rfl
@[simp] theorem latchRx_ivtSelect (s : State) (f : CanFrame) : (s.latchRx f).ivtSelect = s.ivtSelect := rfl
@[simp] theorem latchRx_phase (s : State) (f : CanFrame) : (s.latchRx f).phase = s.phase := rfl
@[simp] theorem latchRx_waiting (s : State) (f : CanFrame) : (s.latchRx f).waiting = s.waiting := rfl
@[simp] theorem latchRx_session (s : State) (f : CanFrame) : (s.latchRx f).session = s.session := rfl
@[simp] theorem latchRx_mem (s : State) (f : CanFrame) : (s.latchRx f).mem = s.mem := rfl
@[simp] theorem latchRx_rxQueue (s : State) (f : CanFrame) : (s.latchRx f).rxQueue = s.rxQueue := rfl
@[simp] theorem latchRx_out (s : State) (f : CanFrame) : (s.latchRx f).out = s.out := rfl
@[simp] theorem latchRx_agent (s : State) (f : CanFrame) : (s.latchRx f).agent = s.agent := rfl
@[simp] theorem latchRx_env (s : State) (f : CanFrame) : (s.latchRx f).env = s.env := rfl
@[simp] theorem latchRx_freeCount (s : State) (f : CanFrame) : (s.latchRx f).freeCount = s.freeCount := rfl

/-! ## holdFrame -/

@[simp] theorem holdFrame_params (s : State) (w : WireFrame) : (s.holdFrame w).params = s.params := rfl
@[simp] theorem holdFrame_rx (s : State) (w : WireFrame) : (s.holdFrame w).rx = s.rx := rfl
@[simp] theorem holdFrame_tx (s : State) (w : WireFrame) : (s.holdFrame w).tx = s.tx := rfl
@[simp] theorem holdFrame_ident (s : State) (w : WireFrame) : (s.holdFrame w).ident = s.ident := rfl
@[simp] theorem holdFrame_cfgPending (s : State) (w : WireFrame) : (s.holdFrame w).cfgPending = s.cfgPending := rfl
@[simp] theorem holdFrame_cfgIndex (s : State) (w : WireFrame) : (s.holdFrame w).cfgIndex = s.cfgIndex := rfl
@[simp] theorem holdFrame_cfgEmitActive (s : State) (w : WireFrame) : (s.holdFrame w).cfgEmitActive = s.cfgEmitActive := rfl
@[simp] theorem holdFrame_cfgEmitIndex (s : State) (w : WireFrame) : (s.holdFrame w).cfgEmitIndex = s.cfgEmitIndex := rfl
@[simp] theorem holdFrame_cfgEmitPos (s : State) (w : WireFrame) : (s.holdFrame w).cfgEmitPos = s.cfgEmitPos := rfl
@[simp] theorem holdFrame_mode (s : State) (w : WireFrame) : (s.holdFrame w).mode = s.mode := rfl
@[simp] theorem holdFrame_ivtSelect (s : State) (w : WireFrame) : (s.holdFrame w).ivtSelect = s.ivtSelect := rfl
@[simp] theorem holdFrame_phase (s : State) (w : WireFrame) : (s.holdFrame w).phase = s.phase := rfl
@[simp] theorem holdFrame_waiting (s : State) (w : WireFrame) : (s.holdFrame w).waiting = s.waiting := rfl
@[simp] theorem holdFrame_session (s : State) (w : WireFrame) : (s.holdFrame w).session = s.session := rfl
@[simp] theorem holdFrame_mem (s : State) (w : WireFrame) : (s.holdFrame w).mem = s.mem := rfl
@[simp] theorem holdFrame_rxQueue (s : State) (w : WireFrame) : (s.holdFrame w).rxQueue = w :: s.rxQueue := rfl
@[simp] theorem holdFrame_out (s : State) (w : WireFrame) : (s.holdFrame w).out = s.out := rfl
@[simp] theorem holdFrame_agent (s : State) (w : WireFrame) : (s.holdFrame w).agent = s.agent := rfl
@[simp] theorem holdFrame_env (s : State) (w : WireFrame) : (s.holdFrame w).env = s.env := rfl
@[simp] theorem holdFrame_freeCount (s : State) (w : WireFrame) : (s.holdFrame w).freeCount = s.freeCount := rfl

/-! ## raise -/

@[simp] theorem raise_params (s : State) (c : Condition) : (s.raise c).params = s.params := rfl
@[simp] theorem raise_rx (s : State) (c : Condition) : (s.raise c).rx = s.rx := rfl
@[simp] theorem raise_tx (s : State) (c : Condition) : (s.raise c).tx = s.tx := rfl
@[simp] theorem raise_ident (s : State) (c : Condition) : (s.raise c).ident = s.ident := rfl
@[simp] theorem raise_cfgPending (s : State) (c : Condition) : (s.raise c).cfgPending = s.cfgPending := rfl
@[simp] theorem raise_cfgIndex (s : State) (c : Condition) : (s.raise c).cfgIndex = s.cfgIndex := rfl
@[simp] theorem raise_cfgEmitActive (s : State) (c : Condition) : (s.raise c).cfgEmitActive = s.cfgEmitActive := rfl
@[simp] theorem raise_cfgEmitIndex (s : State) (c : Condition) : (s.raise c).cfgEmitIndex = s.cfgEmitIndex := rfl
@[simp] theorem raise_cfgEmitPos (s : State) (c : Condition) : (s.raise c).cfgEmitPos = s.cfgEmitPos := rfl
@[simp] theorem raise_mode (s : State) (c : Condition) : (s.raise c).mode = s.mode := rfl
@[simp] theorem raise_ivtSelect (s : State) (c : Condition) : (s.raise c).ivtSelect = s.ivtSelect := rfl
@[simp] theorem raise_phase (s : State) (c : Condition) : (s.raise c).phase = s.phase := rfl
@[simp] theorem raise_waiting (s : State) (c : Condition) : (s.raise c).waiting = s.waiting := rfl
@[simp] theorem raise_session (s : State) (c : Condition) : (s.raise c).session = s.session := rfl
@[simp] theorem raise_mem (s : State) (c : Condition) : (s.raise c).mem = s.mem := rfl
@[simp] theorem raise_rxQueue (s : State) (c : Condition) : (s.raise c).rxQueue = s.rxQueue := rfl
@[simp] theorem raise_out (s : State) (c : Condition) : (s.raise c).out = { s.out with label := some c } := rfl
@[simp] theorem raise_agent (s : State) (c : Condition) : (s.raise c).agent = s.agent := rfl
@[simp] theorem raise_env (s : State) (c : Condition) : (s.raise c).env = s.env := rfl
@[simp] theorem raise_freeCount (s : State) (c : Condition) : (s.raise c).freeCount = s.freeCount := rfl

/-! ## pulseDetach -/

@[simp] theorem pulseDetach_params (s : State) : s.pulseDetach.params = s.params := rfl
@[simp] theorem pulseDetach_rx (s : State) : s.pulseDetach.rx = s.rx := rfl
@[simp] theorem pulseDetach_tx (s : State) : s.pulseDetach.tx = s.tx := rfl
@[simp] theorem pulseDetach_ident (s : State) : s.pulseDetach.ident = s.ident := rfl
@[simp] theorem pulseDetach_cfgPending (s : State) : s.pulseDetach.cfgPending = s.cfgPending := rfl
@[simp] theorem pulseDetach_cfgIndex (s : State) : s.pulseDetach.cfgIndex = s.cfgIndex := rfl
@[simp] theorem pulseDetach_cfgEmitActive (s : State) : s.pulseDetach.cfgEmitActive = s.cfgEmitActive := rfl
@[simp] theorem pulseDetach_cfgEmitIndex (s : State) : s.pulseDetach.cfgEmitIndex = s.cfgEmitIndex := rfl
@[simp] theorem pulseDetach_cfgEmitPos (s : State) : s.pulseDetach.cfgEmitPos = s.cfgEmitPos := rfl
@[simp] theorem pulseDetach_mode (s : State) : s.pulseDetach.mode = s.mode := rfl
@[simp] theorem pulseDetach_ivtSelect (s : State) : s.pulseDetach.ivtSelect = s.ivtSelect := rfl
@[simp] theorem pulseDetach_phase (s : State) : s.pulseDetach.phase = s.phase := rfl
@[simp] theorem pulseDetach_waiting (s : State) : s.pulseDetach.waiting = s.waiting := rfl
@[simp] theorem pulseDetach_session (s : State) : s.pulseDetach.session = s.session := rfl
@[simp] theorem pulseDetach_mem (s : State) : s.pulseDetach.mem = s.mem := rfl
@[simp] theorem pulseDetach_rxQueue (s : State) : s.pulseDetach.rxQueue = s.rxQueue := rfl
@[simp] theorem pulseDetach_out (s : State) : s.pulseDetach.out = { s.out with detachPeripherals := true } := rfl
@[simp] theorem pulseDetach_agent (s : State) : s.pulseDetach.agent = s.agent := rfl
@[simp] theorem pulseDetach_env (s : State) : s.pulseDetach.env = s.env := rfl
@[simp] theorem pulseDetach_freeCount (s : State) : s.pulseDetach.freeCount = s.freeCount := rfl

/-! ## pulseAppStart -/

@[simp] theorem pulseAppStart_params (s : State) : s.pulseAppStart.params = s.params := rfl
@[simp] theorem pulseAppStart_rx (s : State) : s.pulseAppStart.rx = s.rx := rfl
@[simp] theorem pulseAppStart_tx (s : State) : s.pulseAppStart.tx = s.tx := rfl
@[simp] theorem pulseAppStart_ident (s : State) : s.pulseAppStart.ident = s.ident := rfl
@[simp] theorem pulseAppStart_cfgPending (s : State) : s.pulseAppStart.cfgPending = s.cfgPending := rfl
@[simp] theorem pulseAppStart_cfgIndex (s : State) : s.pulseAppStart.cfgIndex = s.cfgIndex := rfl
@[simp] theorem pulseAppStart_cfgEmitActive (s : State) : s.pulseAppStart.cfgEmitActive = s.cfgEmitActive := rfl
@[simp] theorem pulseAppStart_cfgEmitIndex (s : State) : s.pulseAppStart.cfgEmitIndex = s.cfgEmitIndex := rfl
@[simp] theorem pulseAppStart_cfgEmitPos (s : State) : s.pulseAppStart.cfgEmitPos = s.cfgEmitPos := rfl
@[simp] theorem pulseAppStart_mode (s : State) : s.pulseAppStart.mode = s.mode := rfl
@[simp] theorem pulseAppStart_ivtSelect (s : State) : s.pulseAppStart.ivtSelect = s.ivtSelect := rfl
@[simp] theorem pulseAppStart_phase (s : State) : s.pulseAppStart.phase = s.phase := rfl
@[simp] theorem pulseAppStart_waiting (s : State) : s.pulseAppStart.waiting = s.waiting := rfl
@[simp] theorem pulseAppStart_session (s : State) : s.pulseAppStart.session = s.session := rfl
@[simp] theorem pulseAppStart_mem (s : State) : s.pulseAppStart.mem = s.mem := rfl
@[simp] theorem pulseAppStart_rxQueue (s : State) : s.pulseAppStart.rxQueue = s.rxQueue := rfl
@[simp] theorem pulseAppStart_out (s : State) : s.pulseAppStart.out = { s.out with appStart := true } := rfl
@[simp] theorem pulseAppStart_agent (s : State) : s.pulseAppStart.agent = s.agent := rfl
@[simp] theorem pulseAppStart_env (s : State) : s.pulseAppStart.env = s.env := rfl
@[simp] theorem pulseAppStart_freeCount (s : State) : s.pulseAppStart.freeCount = s.freeCount := rfl

/-! ## pulseHook -/

@[simp] theorem pulseHook_params (s : State) : s.pulseHook.params = s.params := rfl
@[simp] theorem pulseHook_rx (s : State) : s.pulseHook.rx = s.rx := rfl
@[simp] theorem pulseHook_tx (s : State) : s.pulseHook.tx = s.tx := rfl
@[simp] theorem pulseHook_ident (s : State) : s.pulseHook.ident = s.ident := rfl
@[simp] theorem pulseHook_cfgPending (s : State) : s.pulseHook.cfgPending = s.cfgPending := rfl
@[simp] theorem pulseHook_cfgIndex (s : State) : s.pulseHook.cfgIndex = s.cfgIndex := rfl
@[simp] theorem pulseHook_cfgEmitActive (s : State) : s.pulseHook.cfgEmitActive = s.cfgEmitActive := rfl
@[simp] theorem pulseHook_cfgEmitIndex (s : State) : s.pulseHook.cfgEmitIndex = s.cfgEmitIndex := rfl
@[simp] theorem pulseHook_cfgEmitPos (s : State) : s.pulseHook.cfgEmitPos = s.cfgEmitPos := rfl
@[simp] theorem pulseHook_mode (s : State) : s.pulseHook.mode = s.mode := rfl
@[simp] theorem pulseHook_ivtSelect (s : State) : s.pulseHook.ivtSelect = s.ivtSelect := rfl
@[simp] theorem pulseHook_phase (s : State) : s.pulseHook.phase = s.phase := rfl
@[simp] theorem pulseHook_waiting (s : State) : s.pulseHook.waiting = s.waiting := rfl
@[simp] theorem pulseHook_session (s : State) : s.pulseHook.session = s.session := rfl
@[simp] theorem pulseHook_mem (s : State) : s.pulseHook.mem = s.mem := rfl
@[simp] theorem pulseHook_rxQueue (s : State) : s.pulseHook.rxQueue = s.rxQueue := rfl
@[simp] theorem pulseHook_out (s : State) : s.pulseHook.out = { s.out with hookValid := some s.rx } := rfl
@[simp] theorem pulseHook_agent (s : State) : s.pulseHook.agent = s.agent := rfl
@[simp] theorem pulseHook_env (s : State) : s.pulseHook.env = s.env := rfl
@[simp] theorem pulseHook_freeCount (s : State) : s.pulseHook.freeCount = s.freeCount := rfl

/-! ## giveBack -/

@[simp] theorem giveBack_params (s : State) (v : Returned) : (s.giveBack v).params = s.params := rfl
@[simp] theorem giveBack_rx (s : State) (v : Returned) : (s.giveBack v).rx = s.rx := rfl
@[simp] theorem giveBack_tx (s : State) (v : Returned) : (s.giveBack v).tx = s.tx := rfl
@[simp] theorem giveBack_ident (s : State) (v : Returned) : (s.giveBack v).ident = s.ident := rfl
@[simp] theorem giveBack_cfgPending (s : State) (v : Returned) : (s.giveBack v).cfgPending = s.cfgPending := rfl
@[simp] theorem giveBack_cfgIndex (s : State) (v : Returned) : (s.giveBack v).cfgIndex = s.cfgIndex := rfl
@[simp] theorem giveBack_cfgEmitActive (s : State) (v : Returned) : (s.giveBack v).cfgEmitActive = s.cfgEmitActive := rfl
@[simp] theorem giveBack_cfgEmitIndex (s : State) (v : Returned) : (s.giveBack v).cfgEmitIndex = s.cfgEmitIndex := rfl
@[simp] theorem giveBack_cfgEmitPos (s : State) (v : Returned) : (s.giveBack v).cfgEmitPos = s.cfgEmitPos := rfl
@[simp] theorem giveBack_mode (s : State) (v : Returned) : (s.giveBack v).mode = s.mode := rfl
@[simp] theorem giveBack_ivtSelect (s : State) (v : Returned) : (s.giveBack v).ivtSelect = s.ivtSelect := rfl
@[simp] theorem giveBack_phase (s : State) (v : Returned) : (s.giveBack v).phase = s.phase := rfl
@[simp] theorem giveBack_waiting (s : State) (v : Returned) : (s.giveBack v).waiting = s.waiting := rfl
@[simp] theorem giveBack_session (s : State) (v : Returned) : (s.giveBack v).session = s.session := rfl
@[simp] theorem giveBack_mem (s : State) (v : Returned) : (s.giveBack v).mem = s.mem := rfl
@[simp] theorem giveBack_rxQueue (s : State) (v : Returned) : (s.giveBack v).rxQueue = s.rxQueue := rfl
@[simp] theorem giveBack_out (s : State) (v : Returned) : (s.giveBack v).out = { s.out with returned := v } := rfl
@[simp] theorem giveBack_agent (s : State) (v : Returned) : (s.giveBack v).agent = s.agent := rfl
@[simp] theorem giveBack_env (s : State) (v : Returned) : (s.giveBack v).env = s.env := rfl
@[simp] theorem giveBack_freeCount (s : State) (v : Returned) : (s.giveBack v).freeCount = s.freeCount := rfl

/-! ## beginStep -/

@[simp] theorem beginStep_params (s : State) : s.beginStep.params = s.params := rfl
@[simp] theorem beginStep_rx (s : State) : s.beginStep.rx = s.rx := rfl
@[simp] theorem beginStep_tx (s : State) : s.beginStep.tx = s.tx := rfl
@[simp] theorem beginStep_ident (s : State) : s.beginStep.ident = s.ident := rfl
@[simp] theorem beginStep_cfgPending (s : State) : s.beginStep.cfgPending = s.cfgPending := rfl
@[simp] theorem beginStep_cfgIndex (s : State) : s.beginStep.cfgIndex = s.cfgIndex := rfl
@[simp] theorem beginStep_cfgEmitActive (s : State) : s.beginStep.cfgEmitActive = s.cfgEmitActive := rfl
@[simp] theorem beginStep_cfgEmitIndex (s : State) : s.beginStep.cfgEmitIndex = s.cfgEmitIndex := rfl
@[simp] theorem beginStep_cfgEmitPos (s : State) : s.beginStep.cfgEmitPos = s.cfgEmitPos := rfl
@[simp] theorem beginStep_mode (s : State) : s.beginStep.mode = s.mode := rfl
@[simp] theorem beginStep_ivtSelect (s : State) : s.beginStep.ivtSelect = s.ivtSelect := rfl
@[simp] theorem beginStep_phase (s : State) : s.beginStep.phase = s.phase := rfl
@[simp] theorem beginStep_waiting (s : State) : s.beginStep.waiting = s.waiting := rfl
@[simp] theorem beginStep_session (s : State) : s.beginStep.session = s.session := rfl
@[simp] theorem beginStep_mem (s : State) : s.beginStep.mem = s.mem := rfl
@[simp] theorem beginStep_rxQueue (s : State) : s.beginStep.rxQueue = s.rxQueue := rfl
@[simp] theorem beginStep_agent (s : State) : s.beginStep.agent = s.agent := rfl
@[simp] theorem beginStep_env (s : State) : s.beginStep.env = s.env := rfl
@[simp] theorem beginStep_freeCount (s : State) : s.beginStep.freeCount = s.freeCount := rfl

/-! ## writeNv -/

@[simp] theorem writeNv_params (s : State) (a : Nat) (v : Byte) : (s.writeNv a v).params = s.params := rfl
@[simp] theorem writeNv_rx (s : State) (a : Nat) (v : Byte) : (s.writeNv a v).rx = s.rx := rfl
@[simp] theorem writeNv_tx (s : State) (a : Nat) (v : Byte) : (s.writeNv a v).tx = s.tx := rfl
@[simp] theorem writeNv_ident (s : State) (a : Nat) (v : Byte) : (s.writeNv a v).ident = s.ident := rfl
@[simp] theorem writeNv_cfgPending (s : State) (a : Nat) (v : Byte) : (s.writeNv a v).cfgPending = s.cfgPending := rfl
@[simp] theorem writeNv_cfgIndex (s : State) (a : Nat) (v : Byte) : (s.writeNv a v).cfgIndex = s.cfgIndex := rfl
@[simp] theorem writeNv_cfgEmitActive (s : State) (a : Nat) (v : Byte) : (s.writeNv a v).cfgEmitActive = s.cfgEmitActive := rfl
@[simp] theorem writeNv_cfgEmitIndex (s : State) (a : Nat) (v : Byte) : (s.writeNv a v).cfgEmitIndex = s.cfgEmitIndex := rfl
@[simp] theorem writeNv_cfgEmitPos (s : State) (a : Nat) (v : Byte) : (s.writeNv a v).cfgEmitPos = s.cfgEmitPos := rfl
@[simp] theorem writeNv_mode (s : State) (a : Nat) (v : Byte) : (s.writeNv a v).mode = s.mode := rfl
@[simp] theorem writeNv_ivtSelect (s : State) (a : Nat) (v : Byte) : (s.writeNv a v).ivtSelect = s.ivtSelect := rfl
@[simp] theorem writeNv_phase (s : State) (a : Nat) (v : Byte) : (s.writeNv a v).phase = s.phase := rfl
@[simp] theorem writeNv_waiting (s : State) (a : Nat) (v : Byte) : (s.writeNv a v).waiting = s.waiting := rfl
@[simp] theorem writeNv_session (s : State) (a : Nat) (v : Byte) : (s.writeNv a v).session = s.session := rfl
@[simp] theorem writeNv_mem (s : State) (a : Nat) (v : Byte) : (s.writeNv a v).mem = s.mem.write .nv a v := rfl
@[simp] theorem writeNv_rxQueue (s : State) (a : Nat) (v : Byte) : (s.writeNv a v).rxQueue = s.rxQueue := rfl
@[simp] theorem writeNv_out (s : State) (a : Nat) (v : Byte) : (s.writeNv a v).out = s.out := rfl
@[simp] theorem writeNv_agent (s : State) (a : Nat) (v : Byte) : (s.writeNv a v).agent = s.agent := rfl
@[simp] theorem writeNv_env (s : State) (a : Nat) (v : Byte) : (s.writeNv a v).env = s.env := rfl
@[simp] theorem writeNv_freeCount (s : State) (a : Nat) (v : Byte) : (s.writeNv a v).freeCount = s.freeCount := rfl

/-! ## writeFlash -/

@[simp] theorem writeFlash_params (s : State) (a : Nat) (vs : List Byte) : (s.writeFlash a vs).params = s.params := rfl
@[simp] theorem writeFlash_rx (s : State) (a : Nat) (vs : List Byte) : (s.writeFlash a vs).rx = s.rx := rfl
@[simp] theorem writeFlash_tx (s : State) (a : Nat) (vs : List Byte) : (s.writeFlash a vs).tx = s.tx := rfl
@[simp] theorem writeFlash_ident (s : State) (a : Nat) (vs : List Byte) : (s.writeFlash a vs).ident = s.ident := rfl
@[simp] theorem writeFlash_cfgPending (s : State) (a : Nat) (vs : List Byte) : (s.writeFlash a vs).cfgPending = s.cfgPending := rfl
@[simp] theorem writeFlash_cfgIndex (s : State) (a : Nat) (vs : List Byte) : (s.writeFlash a vs).cfgIndex = s.cfgIndex := rfl
@[simp] theorem writeFlash_cfgEmitActive (s : State) (a : Nat) (vs : List Byte) : (s.writeFlash a vs).cfgEmitActive = s.cfgEmitActive := rfl
@[simp] theorem writeFlash_cfgEmitIndex (s : State) (a : Nat) (vs : List Byte) : (s.writeFlash a vs).cfgEmitIndex = s.cfgEmitIndex := rfl
@[simp] theorem writeFlash_cfgEmitPos (s : State) (a : Nat) (vs : List Byte) : (s.writeFlash a vs).cfgEmitPos = s.cfgEmitPos := rfl
@[simp] theorem writeFlash_mode (s : State) (a : Nat) (vs : List Byte) : (s.writeFlash a vs).mode = s.mode := rfl
@[simp] theorem writeFlash_ivtSelect (s : State) (a : Nat) (vs : List Byte) : (s.writeFlash a vs).ivtSelect = s.ivtSelect := rfl
@[simp] theorem writeFlash_phase (s : State) (a : Nat) (vs : List Byte) : (s.writeFlash a vs).phase = s.phase := rfl
@[simp] theorem writeFlash_waiting (s : State) (a : Nat) (vs : List Byte) : (s.writeFlash a vs).waiting = s.waiting := rfl
@[simp] theorem writeFlash_session (s : State) (a : Nat) (vs : List Byte) : (s.writeFlash a vs).session = s.session := rfl
@[simp] theorem writeFlash_mem (s : State) (a : Nat) (vs : List Byte) : (s.writeFlash a vs).mem = s.mem.writeList .flash a vs := rfl
@[simp] theorem writeFlash_rxQueue (s : State) (a : Nat) (vs : List Byte) : (s.writeFlash a vs).rxQueue = s.rxQueue := rfl
@[simp] theorem writeFlash_out (s : State) (a : Nat) (vs : List Byte) : (s.writeFlash a vs).out = s.out := rfl
@[simp] theorem writeFlash_agent (s : State) (a : Nat) (vs : List Byte) : (s.writeFlash a vs).agent = s.agent := rfl
@[simp] theorem writeFlash_env (s : State) (a : Nat) (vs : List Byte) : (s.writeFlash a vs).env = s.env := rfl
@[simp] theorem writeFlash_freeCount (s : State) (a : Nat) (vs : List Byte) : (s.writeFlash a vs).freeCount = s.freeCount := rfl

/-! ## persistAddress -/

@[simp] theorem persistAddress_params (s : State) (a : Address) : (s.persistAddress a).params = s.params := rfl
@[simp] theorem persistAddress_rx (s : State) (a : Address) : (s.persistAddress a).rx = s.rx := rfl
@[simp] theorem persistAddress_tx (s : State) (a : Address) : (s.persistAddress a).tx = s.tx := rfl
@[simp] theorem persistAddress_ident (s : State) (a : Address) : (s.persistAddress a).ident = s.ident := rfl
@[simp] theorem persistAddress_cfgPending (s : State) (a : Address) : (s.persistAddress a).cfgPending = s.cfgPending := rfl
@[simp] theorem persistAddress_cfgIndex (s : State) (a : Address) : (s.persistAddress a).cfgIndex = s.cfgIndex := rfl
@[simp] theorem persistAddress_cfgEmitActive (s : State) (a : Address) : (s.persistAddress a).cfgEmitActive = s.cfgEmitActive := rfl
@[simp] theorem persistAddress_cfgEmitIndex (s : State) (a : Address) : (s.persistAddress a).cfgEmitIndex = s.cfgEmitIndex := rfl
@[simp] theorem persistAddress_cfgEmitPos (s : State) (a : Address) : (s.persistAddress a).cfgEmitPos = s.cfgEmitPos := rfl
@[simp] theorem persistAddress_mode (s : State) (a : Address) : (s.persistAddress a).mode = s.mode := rfl
@[simp] theorem persistAddress_ivtSelect (s : State) (a : Address) : (s.persistAddress a).ivtSelect = s.ivtSelect := rfl
@[simp] theorem persistAddress_phase (s : State) (a : Address) : (s.persistAddress a).phase = s.phase := rfl
@[simp] theorem persistAddress_waiting (s : State) (a : Address) : (s.persistAddress a).waiting = s.waiting := rfl
@[simp] theorem persistAddress_session (s : State) (a : Address) : (s.persistAddress a).session = s.session := rfl
@[simp] theorem persistAddress_mem (s : State) (a : Address) : (s.persistAddress a).mem = (s.mem.write .nv s.params.nvAddrHiOffset a.hi).write .nv s.params.nvAddrLoOffset a.lo := rfl
@[simp] theorem persistAddress_rxQueue (s : State) (a : Address) : (s.persistAddress a).rxQueue = s.rxQueue := rfl
@[simp] theorem persistAddress_out (s : State) (a : Address) : (s.persistAddress a).out = s.out := rfl
@[simp] theorem persistAddress_agent (s : State) (a : Address) : (s.persistAddress a).agent = s.agent := rfl
@[simp] theorem persistAddress_env (s : State) (a : Address) : (s.persistAddress a).env = s.env := rfl
@[simp] theorem persistAddress_freeCount (s : State) (a : Address) : (s.persistAddress a).freeCount = s.freeCount := rfl

/-! ## identLoad -/

@[simp] theorem identLoad_params (s : State) (base : Uid) : (s.identLoad base).params = s.params := rfl
@[simp] theorem identLoad_rx (s : State) (base : Uid) : (s.identLoad base).rx = s.rx := rfl
@[simp] theorem identLoad_tx (s : State) (base : Uid) : (s.identLoad base).tx = s.tx := rfl
@[simp] theorem identLoad_cfgPending (s : State) (base : Uid) : (s.identLoad base).cfgPending = s.cfgPending := rfl
@[simp] theorem identLoad_cfgIndex (s : State) (base : Uid) : (s.identLoad base).cfgIndex = s.cfgIndex := rfl
@[simp] theorem identLoad_cfgEmitActive (s : State) (base : Uid) : (s.identLoad base).cfgEmitActive = s.cfgEmitActive := rfl
@[simp] theorem identLoad_cfgEmitIndex (s : State) (base : Uid) : (s.identLoad base).cfgEmitIndex = s.cfgEmitIndex := rfl
@[simp] theorem identLoad_cfgEmitPos (s : State) (base : Uid) : (s.identLoad base).cfgEmitPos = s.cfgEmitPos := rfl
@[simp] theorem identLoad_mode (s : State) (base : Uid) : (s.identLoad base).mode = s.mode := rfl
@[simp] theorem identLoad_ivtSelect (s : State) (base : Uid) : (s.identLoad base).ivtSelect = s.ivtSelect := rfl
@[simp] theorem identLoad_phase (s : State) (base : Uid) : (s.identLoad base).phase = s.phase := rfl
@[simp] theorem identLoad_waiting (s : State) (base : Uid) : (s.identLoad base).waiting = s.waiting := rfl
@[simp] theorem identLoad_session (s : State) (base : Uid) : (s.identLoad base).session = s.session := rfl
@[simp] theorem identLoad_mem (s : State) (base : Uid) : (s.identLoad base).mem = s.mem := rfl
@[simp] theorem identLoad_rxQueue (s : State) (base : Uid) : (s.identLoad base).rxQueue = s.rxQueue := rfl
@[simp] theorem identLoad_out (s : State) (base : Uid) : (s.identLoad base).out = s.out := rfl
@[simp] theorem identLoad_agent (s : State) (base : Uid) : (s.identLoad base).agent = s.agent := rfl
@[simp] theorem identLoad_env (s : State) (base : Uid) : (s.identLoad base).env = s.env := rfl
@[simp] theorem identLoad_freeCount (s : State) (base : Uid) : (s.identLoad base).freeCount = s.freeCount := rfl

/-! ## agentSend -/

@[simp] theorem agentSend_params (s : State) (f : CanFrame) : (s.agentSend f).params = s.params := rfl
@[simp] theorem agentSend_rx (s : State) (f : CanFrame) : (s.agentSend f).rx = s.rx := rfl
@[simp] theorem agentSend_tx (s : State) (f : CanFrame) : (s.agentSend f).tx = s.tx := rfl
@[simp] theorem agentSend_ident (s : State) (f : CanFrame) : (s.agentSend f).ident = s.ident := rfl
@[simp] theorem agentSend_cfgPending (s : State) (f : CanFrame) : (s.agentSend f).cfgPending = s.cfgPending := rfl
@[simp] theorem agentSend_cfgIndex (s : State) (f : CanFrame) : (s.agentSend f).cfgIndex = s.cfgIndex := rfl
@[simp] theorem agentSend_cfgEmitActive (s : State) (f : CanFrame) : (s.agentSend f).cfgEmitActive = s.cfgEmitActive := rfl
@[simp] theorem agentSend_cfgEmitIndex (s : State) (f : CanFrame) : (s.agentSend f).cfgEmitIndex = s.cfgEmitIndex := rfl
@[simp] theorem agentSend_cfgEmitPos (s : State) (f : CanFrame) : (s.agentSend f).cfgEmitPos = s.cfgEmitPos := rfl
@[simp] theorem agentSend_mode (s : State) (f : CanFrame) : (s.agentSend f).mode = s.mode := rfl
@[simp] theorem agentSend_ivtSelect (s : State) (f : CanFrame) : (s.agentSend f).ivtSelect = s.ivtSelect := rfl
@[simp] theorem agentSend_phase (s : State) (f : CanFrame) : (s.agentSend f).phase = s.phase := rfl
@[simp] theorem agentSend_waiting (s : State) (f : CanFrame) : (s.agentSend f).waiting = s.waiting := rfl
@[simp] theorem agentSend_session (s : State) (f : CanFrame) : (s.agentSend f).session = s.session := rfl
@[simp] theorem agentSend_mem (s : State) (f : CanFrame) : (s.agentSend f).mem = s.mem := rfl
@[simp] theorem agentSend_rxQueue (s : State) (f : CanFrame) : (s.agentSend f).rxQueue = s.rxQueue ++ [encodeFrame f] := rfl
@[simp] theorem agentSend_out (s : State) (f : CanFrame) : (s.agentSend f).out = s.out := rfl
@[simp] theorem agentSend_env (s : State) (f : CanFrame) : (s.agentSend f).env = s.env := rfl
@[simp] theorem agentSend_freeCount (s : State) (f : CanFrame) : (s.agentSend f).freeCount = s.freeCount := rfl

/-! ## agentTakes -/

@[simp] theorem agentTakes_params (s : State) : s.agentTakes.params = s.params := rfl
@[simp] theorem agentTakes_rx (s : State) : s.agentTakes.rx = s.rx := rfl
@[simp] theorem agentTakes_tx (s : State) : s.agentTakes.tx = s.tx := rfl
@[simp] theorem agentTakes_ident (s : State) : s.agentTakes.ident = s.ident := rfl
@[simp] theorem agentTakes_cfgPending (s : State) : s.agentTakes.cfgPending = s.cfgPending := rfl
@[simp] theorem agentTakes_cfgIndex (s : State) : s.agentTakes.cfgIndex = s.cfgIndex := rfl
@[simp] theorem agentTakes_cfgEmitActive (s : State) : s.agentTakes.cfgEmitActive = s.cfgEmitActive := rfl
@[simp] theorem agentTakes_cfgEmitIndex (s : State) : s.agentTakes.cfgEmitIndex = s.cfgEmitIndex := rfl
@[simp] theorem agentTakes_cfgEmitPos (s : State) : s.agentTakes.cfgEmitPos = s.cfgEmitPos := rfl
@[simp] theorem agentTakes_mode (s : State) : s.agentTakes.mode = s.mode := rfl
@[simp] theorem agentTakes_ivtSelect (s : State) : s.agentTakes.ivtSelect = s.ivtSelect := rfl
@[simp] theorem agentTakes_phase (s : State) : s.agentTakes.phase = s.phase := rfl
@[simp] theorem agentTakes_waiting (s : State) : s.agentTakes.waiting = s.waiting := rfl
@[simp] theorem agentTakes_session (s : State) : s.agentTakes.session = s.session := rfl
@[simp] theorem agentTakes_mem (s : State) : s.agentTakes.mem = s.mem := rfl
@[simp] theorem agentTakes_rxQueue (s : State) : s.agentTakes.rxQueue = s.rxQueue := rfl
@[simp] theorem agentTakes_out (s : State) : s.agentTakes.out = s.out := rfl
@[simp] theorem agentTakes_agent (s : State) : s.agentTakes.agent = { s.agent with inbox := s.agent.inbox.drop 1 } := rfl
@[simp] theorem agentTakes_env (s : State) : s.agentTakes.env = s.env := rfl
@[simp] theorem agentTakes_freeCount (s : State) : s.agentTakes.freeCount = s.freeCount := rfl

/-! ## dropInput -/

@[simp] theorem dropInput_params (s : State) : s.dropInput.params = s.params := rfl
@[simp] theorem dropInput_rx (s : State) : s.dropInput.rx = s.rx := rfl
@[simp] theorem dropInput_tx (s : State) : s.dropInput.tx = s.tx := rfl
@[simp] theorem dropInput_ident (s : State) : s.dropInput.ident = s.ident := rfl
@[simp] theorem dropInput_cfgPending (s : State) : s.dropInput.cfgPending = s.cfgPending := rfl
@[simp] theorem dropInput_cfgIndex (s : State) : s.dropInput.cfgIndex = s.cfgIndex := rfl
@[simp] theorem dropInput_cfgEmitActive (s : State) : s.dropInput.cfgEmitActive = s.cfgEmitActive := rfl
@[simp] theorem dropInput_cfgEmitIndex (s : State) : s.dropInput.cfgEmitIndex = s.cfgEmitIndex := rfl
@[simp] theorem dropInput_cfgEmitPos (s : State) : s.dropInput.cfgEmitPos = s.cfgEmitPos := rfl
@[simp] theorem dropInput_mode (s : State) : s.dropInput.mode = s.mode := rfl
@[simp] theorem dropInput_ivtSelect (s : State) : s.dropInput.ivtSelect = s.ivtSelect := rfl
@[simp] theorem dropInput_phase (s : State) : s.dropInput.phase = s.phase := rfl
@[simp] theorem dropInput_waiting (s : State) : s.dropInput.waiting = s.waiting := rfl
@[simp] theorem dropInput_session (s : State) : s.dropInput.session = s.session := rfl
@[simp] theorem dropInput_mem (s : State) : s.dropInput.mem = s.mem := rfl
@[simp] theorem dropInput_rxQueue (s : State) : s.dropInput.rxQueue = s.rxQueue := rfl
@[simp] theorem dropInput_out (s : State) : s.dropInput.out = s.out := rfl
@[simp] theorem dropInput_agent (s : State) : s.dropInput.agent = s.agent := rfl
@[simp] theorem dropInput_env (s : State) : s.dropInput.env = { s.env with inputs := s.env.inputs.drop 1 } := rfl
@[simp] theorem dropInput_freeCount (s : State) : s.dropInput.freeCount = s.freeCount := rfl

/-! ## loadChunk -/

@[simp] theorem loadChunk_params (s : State) : s.loadChunk.params = s.params := rfl
@[simp] theorem loadChunk_rx (s : State) : s.loadChunk.rx = s.rx := rfl
@[simp] theorem loadChunk_tx (s : State) : s.loadChunk.tx = s.tx := rfl
@[simp] theorem loadChunk_ident (s : State) : s.loadChunk.ident = s.ident := rfl
@[simp] theorem loadChunk_cfgPending (s : State) : s.loadChunk.cfgPending = s.cfgPending := rfl
@[simp] theorem loadChunk_cfgIndex (s : State) : s.loadChunk.cfgIndex = s.cfgIndex := rfl
@[simp] theorem loadChunk_cfgEmitActive (s : State) : s.loadChunk.cfgEmitActive = s.cfgEmitActive := rfl
@[simp] theorem loadChunk_cfgEmitIndex (s : State) : s.loadChunk.cfgEmitIndex = s.cfgEmitIndex := rfl
@[simp] theorem loadChunk_cfgEmitPos (s : State) : s.loadChunk.cfgEmitPos = s.cfgEmitPos := rfl
@[simp] theorem loadChunk_mode (s : State) : s.loadChunk.mode = s.mode := rfl
@[simp] theorem loadChunk_ivtSelect (s : State) : s.loadChunk.ivtSelect = s.ivtSelect := rfl
@[simp] theorem loadChunk_phase (s : State) : s.loadChunk.phase = s.phase := rfl
@[simp] theorem loadChunk_waiting (s : State) : s.loadChunk.waiting = false := rfl
@[simp] theorem loadChunk_mem (s : State) : s.loadChunk.mem = s.mem := rfl
@[simp] theorem loadChunk_rxQueue (s : State) : s.loadChunk.rxQueue = s.rxQueue := rfl
@[simp] theorem loadChunk_out (s : State) : s.loadChunk.out = s.out := rfl
@[simp] theorem loadChunk_agent (s : State) : s.loadChunk.agent = s.agent := rfl
@[simp] theorem loadChunk_env (s : State) : s.loadChunk.env = s.env := rfl
@[simp] theorem loadChunk_freeCount (s : State) : s.loadChunk.freeCount = s.freeCount := rfl

/-! ## endOfData -/

@[simp] theorem endOfData_params (s : State) : s.endOfData.params = s.params := rfl
@[simp] theorem endOfData_rx (s : State) : s.endOfData.rx = s.rx := rfl
@[simp] theorem endOfData_tx (s : State) : s.endOfData.tx = s.tx := rfl
@[simp] theorem endOfData_ident (s : State) : s.endOfData.ident = s.ident := rfl
@[simp] theorem endOfData_cfgPending (s : State) : s.endOfData.cfgPending = s.cfgPending := rfl
@[simp] theorem endOfData_cfgIndex (s : State) : s.endOfData.cfgIndex = s.cfgIndex := rfl
@[simp] theorem endOfData_cfgEmitActive (s : State) : s.endOfData.cfgEmitActive = s.cfgEmitActive := rfl
@[simp] theorem endOfData_cfgEmitIndex (s : State) : s.endOfData.cfgEmitIndex = s.cfgEmitIndex := rfl
@[simp] theorem endOfData_cfgEmitPos (s : State) : s.endOfData.cfgEmitPos = s.cfgEmitPos := rfl
@[simp] theorem endOfData_mode (s : State) : s.endOfData.mode = s.mode := rfl
@[simp] theorem endOfData_ivtSelect (s : State) : s.endOfData.ivtSelect = s.ivtSelect := rfl
@[simp] theorem endOfData_phase (s : State) : s.endOfData.phase = .finished := rfl
@[simp] theorem endOfData_waiting (s : State) : s.endOfData.waiting = false := rfl
@[simp] theorem endOfData_session (s : State) : s.endOfData.session = { s.session with parserState := .finished } := rfl
@[simp] theorem endOfData_mem (s : State) : s.endOfData.mem = s.mem := rfl
@[simp] theorem endOfData_rxQueue (s : State) : s.endOfData.rxQueue = s.rxQueue := rfl
@[simp] theorem endOfData_out (s : State) : s.endOfData.out = s.out := rfl
@[simp] theorem endOfData_agent (s : State) : s.endOfData.agent = s.agent := rfl
@[simp] theorem endOfData_env (s : State) : s.endOfData.env = s.env := rfl
@[simp] theorem endOfData_freeCount (s : State) : s.endOfData.freeCount = s.freeCount := rfl

/-! ## stopAtPageRange -/

@[simp] theorem stopAtPageRange_params (s : State) : s.stopAtPageRange.params = s.params := rfl
@[simp] theorem stopAtPageRange_rx (s : State) : s.stopAtPageRange.rx = s.rx := rfl
@[simp] theorem stopAtPageRange_tx (s : State) : s.stopAtPageRange.tx = s.tx := rfl
@[simp] theorem stopAtPageRange_ident (s : State) : s.stopAtPageRange.ident = s.ident := rfl
@[simp] theorem stopAtPageRange_cfgPending (s : State) : s.stopAtPageRange.cfgPending = s.cfgPending := rfl
@[simp] theorem stopAtPageRange_cfgIndex (s : State) : s.stopAtPageRange.cfgIndex = s.cfgIndex := rfl
@[simp] theorem stopAtPageRange_cfgEmitActive (s : State) : s.stopAtPageRange.cfgEmitActive = s.cfgEmitActive := rfl
@[simp] theorem stopAtPageRange_cfgEmitIndex (s : State) : s.stopAtPageRange.cfgEmitIndex = s.cfgEmitIndex := rfl
@[simp] theorem stopAtPageRange_cfgEmitPos (s : State) : s.stopAtPageRange.cfgEmitPos = s.cfgEmitPos := rfl
@[simp] theorem stopAtPageRange_mode (s : State) : s.stopAtPageRange.mode = s.mode := rfl
@[simp] theorem stopAtPageRange_ivtSelect (s : State) : s.stopAtPageRange.ivtSelect = s.ivtSelect := rfl
@[simp] theorem stopAtPageRange_phase (s : State) : s.stopAtPageRange.phase = .halted := rfl
@[simp] theorem stopAtPageRange_waiting (s : State) : s.stopAtPageRange.waiting = s.waiting := rfl
theorem stopAtPageRange_keeps_page {s : State} (h : s.session.writeCursor < s.params.pageSize) :
    s.stopAtPageRange.session = { s.session with parserState := .streaming } := by
  show TransferSession.mk _ _ _ _ _ _ _ = _
  rw [if_pos h]
theorem stopAtPageRange_empties_page {s : State} (h : s.params.pageSize ≤ s.session.writeCursor) :
    s.stopAtPageRange.session = { s.session.withEmptyPage s.params.pageSize with parserState := .streaming } := by
  show TransferSession.mk _ _ _ _ _ _ _ = _
  rw [if_neg (Nat.not_lt.mpr h)]
@[simp] theorem stopAtPageRange_pageIndex (s : State) : s.stopAtPageRange.session.pageIndex = s.session.pageIndex := by
  show TransferSession.pageIndex (ite _ _ _) = _; split <;> rfl
@[simp] theorem stopAtPageRange_localChunk (s : State) : s.stopAtPageRange.session.localChunk = s.session.localChunk := by
  show TransferSession.localChunk (ite _ _ _) = _; split <;> rfl
@[simp] theorem stopAtPageRange_chunkCursor (s : State) : s.stopAtPageRange.session.chunkCursor = s.session.chunkCursor := by
  show TransferSession.chunkCursor (ite _ _ _) = _; split <;> rfl
@[simp] theorem stopAtPageRange_chunkLimit (s : State) : s.stopAtPageRange.session.chunkLimit = s.session.chunkLimit := by
  show TransferSession.chunkLimit (ite _ _ _) = _; split <;> rfl
@[simp] theorem stopAtPageRange_parserState (s : State) : s.stopAtPageRange.session.parserState = .streaming := rfl
@[simp] theorem stopAtPageRange_mem (s : State) : s.stopAtPageRange.mem = s.mem := rfl
@[simp] theorem stopAtPageRange_rxQueue (s : State) : s.stopAtPageRange.rxQueue = s.rxQueue := rfl
@[simp] theorem stopAtPageRange_out (s : State) : s.stopAtPageRange.out = { s.out with label := some .pageRangeStop } := rfl
@[simp] theorem stopAtPageRange_agent (s : State) : s.stopAtPageRange.agent = s.agent := rfl
@[simp] theorem stopAtPageRange_env (s : State) : s.stopAtPageRange.env = s.env := rfl
@[simp] theorem stopAtPageRange_freeCount (s : State) : s.stopAtPageRange.freeCount = s.freeCount := rfl

/-! ## abandonTransfer -/

@[simp] theorem abandonTransfer_params (s : State) : s.abandonTransfer.params = s.params := rfl
@[simp] theorem abandonTransfer_rx (s : State) : s.abandonTransfer.rx = s.rx := rfl
@[simp] theorem abandonTransfer_tx (s : State) : s.abandonTransfer.tx = s.tx := rfl
@[simp] theorem abandonTransfer_ident (s : State) : s.abandonTransfer.ident = s.ident := rfl
@[simp] theorem abandonTransfer_cfgPending (s : State) : s.abandonTransfer.cfgPending = s.cfgPending := rfl
@[simp] theorem abandonTransfer_cfgIndex (s : State) : s.abandonTransfer.cfgIndex = s.cfgIndex := rfl
@[simp] theorem abandonTransfer_cfgEmitActive (s : State) : s.abandonTransfer.cfgEmitActive = s.cfgEmitActive := rfl
@[simp] theorem abandonTransfer_cfgEmitIndex (s : State) : s.abandonTransfer.cfgEmitIndex = s.cfgEmitIndex := rfl
@[simp] theorem abandonTransfer_cfgEmitPos (s : State) : s.abandonTransfer.cfgEmitPos = s.cfgEmitPos := rfl
@[simp] theorem abandonTransfer_mode (s : State) : s.abandonTransfer.mode = s.mode := rfl
@[simp] theorem abandonTransfer_ivtSelect (s : State) : s.abandonTransfer.ivtSelect = s.ivtSelect := rfl
@[simp] theorem abandonTransfer_phase (s : State) : s.abandonTransfer.phase = .handoffToApplication := rfl
@[simp] theorem abandonTransfer_waiting (s : State) : s.abandonTransfer.waiting = false := rfl
@[simp] theorem abandonTransfer_session (s : State) :
    s.abandonTransfer.session = { s.session with parserState := .finished } := rfl
@[simp] theorem abandonTransfer_mem (s : State) : s.abandonTransfer.mem = s.mem := rfl
@[simp] theorem abandonTransfer_rxQueue (s : State) : s.abandonTransfer.rxQueue = s.rxQueue := rfl
@[simp] theorem abandonTransfer_out (s : State) : s.abandonTransfer.out = { s.out with label := some .transferTimeout } := rfl
@[simp] theorem abandonTransfer_agent (s : State) : s.abandonTransfer.agent = s.agent := rfl
@[simp] theorem abandonTransfer_env (s : State) : s.abandonTransfer.env = s.env := rfl
@[simp] theorem abandonTransfer_freeCount (s : State) : s.abandonTransfer.freeCount = s.freeCount := rfl

/-! ## enterBootloader -/

@[simp] theorem enterBootloader_params (s : State) : s.enterBootloader.params = s.params := rfl
@[simp] theorem enterBootloader_rx (s : State) : s.enterBootloader.rx = s.rx := rfl
@[simp] theorem enterBootloader_tx (s : State) : s.enterBootloader.tx = s.tx := rfl
@[simp] theorem enterBootloader_ident (s : State) : s.enterBootloader.ident = (s.identLoad s.params.baseUidBl).ident := rfl
@[simp] theorem enterBootloader_cfgPending (s : State) : s.enterBootloader.cfgPending = false := rfl
@[simp] theorem enterBootloader_cfgIndex (s : State) : s.enterBootloader.cfgIndex = s.cfgIndex := rfl
@[simp] theorem enterBootloader_cfgEmitActive (s : State) : s.enterBootloader.cfgEmitActive = false := rfl
@[simp] theorem enterBootloader_cfgEmitIndex (s : State) : s.enterBootloader.cfgEmitIndex = s.cfgEmitIndex := rfl
@[simp] theorem enterBootloader_cfgEmitPos (s : State) : s.enterBootloader.cfgEmitPos = s.cfgEmitPos := rfl
@[simp] theorem enterBootloader_mode (s : State) : s.enterBootloader.mode = .bootloader := rfl
@[simp] theorem enterBootloader_ivtSelect (s : State) : s.enterBootloader.ivtSelect = .boot := rfl
@[simp] theorem enterBootloader_phase (s : State) : s.enterBootloader.phase = .awaitingStart := rfl
@[simp] theorem enterBootloader_waiting (s : State) : s.enterBootloader.waiting = false := rfl
@[simp] theorem enterBootloader_mem (s : State) : s.enterBootloader.mem = s.mem := rfl
@[simp] theorem enterBootloader_rxQueue (s : State) : s.enterBootloader.rxQueue = s.rxQueue := rfl
@[simp] theorem enterBootloader_out (s : State) : s.enterBootloader.out = s.out := rfl
@[simp] theorem enterBootloader_agent (s : State) : s.enterBootloader.agent = s.agent := rfl
@[simp] theorem enterBootloader_env (s : State) : s.enterBootloader.env = s.env := rfl
@[simp] theorem enterBootloader_freeCount (s : State) : s.enterBootloader.freeCount = s.freeCount + 1 := rfl

/-! ## handOff -/

@[simp] theorem handOff_params (s : State) : s.handOff.params = s.params := rfl
@[simp] theorem handOff_rx (s : State) : s.handOff.rx = s.rx := rfl
@[simp] theorem handOff_tx (s : State) : s.handOff.tx = s.tx := rfl
@[simp] theorem handOff_ident (s : State) : s.handOff.ident = (s.identLoad s.params.baseUidApp).ident := rfl
@[simp] theorem handOff_cfgPending (s : State) : s.handOff.cfgPending = false := rfl
@[simp] theorem handOff_cfgIndex (s : State) : s.handOff.cfgIndex = s.cfgIndex := rfl
@[simp] theorem handOff_cfgEmitActive (s : State) : s.handOff.cfgEmitActive = false := rfl
@[simp] theorem handOff_cfgEmitIndex (s : State) : s.handOff.cfgEmitIndex = s.cfgEmitIndex := rfl
@[simp] theorem handOff_cfgEmitPos (s : State) : s.handOff.cfgEmitPos = s.cfgEmitPos := rfl
@[simp] theorem handOff_mode (s : State) : s.handOff.mode = .application := rfl
@[simp] theorem handOff_ivtSelect (s : State) : s.handOff.ivtSelect = .app := rfl
@[simp] theorem handOff_phase (s : State) : s.handOff.phase = .idle := rfl
@[simp] theorem handOff_waiting (s : State) : s.handOff.waiting = false := rfl
@[simp] theorem handOff_session (s : State) : s.handOff.session = freeSession s.params s.freeCount := rfl
@[simp] theorem handOff_mem (s : State) : s.handOff.mem = s.mem := rfl
@[simp] theorem handOff_rxQueue (s : State) : s.handOff.rxQueue = s.rxQueue := rfl
@[simp] theorem handOff_out (s : State) : s.handOff.out = { s.out with appStart := true } := rfl
@[simp] theorem handOff_agent (s : State) : s.handOff.agent = s.agent := rfl
@[simp] theorem handOff_env (s : State) : s.handOff.env = s.env := rfl
@[simp] theorem handOff_freeCount (s : State) : s.handOff.freeCount = s.freeCount + 1 := rfl

/-! ## The groups an operation changes in part -/

@[simp] theorem send_trace (s : State) (f : CanFrame) : (s.send f).out.trace = s.out.trace ++ [encodeFrame f] := rfl
@[simp] theorem send_inbox (s : State) (f : CanFrame) : (s.send f).agent.inbox = s.agent.inbox ++ [encodeFrame f] := rfl
@[simp] theorem send_agentPhase (s : State) (f : CanFrame) : (s.send f).agent.phase = s.agent.phase := rfl
@[simp] theorem send_image (s : State) (f : CanFrame) : (s.send f).agent.image = s.agent.image := rfl
@[simp] theorem send_pos (s : State) (f : CanFrame) : (s.send f).agent.pos = s.agent.pos := rfl
@[simp] theorem send_agentHash (s : State) (f : CanFrame) : (s.send f).agent.hash = s.agent.hash := rfl
@[simp] theorem beginStep_trace (s : State) : s.beginStep.out.trace = s.out.trace := rfl
@[simp] theorem agentSend_inbox (s : State) (f : CanFrame) : (s.agentSend f).agent.inbox = s.agent.inbox := rfl
@[simp] theorem agentSend_agentPhase (s : State) (f : CanFrame) : (s.agentSend f).agent.phase = s.agent.phase := rfl
@[simp] theorem agentSend_image (s : State) (f : CanFrame) : (s.agentSend f).agent.image = s.agent.image := rfl
@[simp] theorem agentSend_pos (s : State) (f : CanFrame) : (s.agentSend f).agent.pos = s.agent.pos := rfl
@[simp] theorem agentSend_hash (s : State) (f : CanFrame) : (s.agentSend f).agent.hash = s.agent.hash := rfl
@[simp] theorem identLoad_address (s : State) (base : Uid) : (s.identLoad base).ident.address = s.persistedAddress := rfl
@[simp] theorem loadChunk_chunkCursor (s : State) : s.loadChunk.session.chunkCursor = s.params.chunkCursorStart.val := rfl
@[simp] theorem loadChunk_pageBuffer (s : State) : s.loadChunk.session.pageBuffer = s.session.pageBuffer := rfl
@[simp] theorem loadChunk_pageIndex (s : State) : s.loadChunk.session.pageIndex = s.session.pageIndex := rfl
@[simp] theorem loadChunk_writeCursor (s : State) : s.loadChunk.session.writeCursor = s.session.writeCursor := rfl
@[simp] theorem loadChunk_parserState (s : State) : s.loadChunk.session.parserState = s.session.parserState := rfl

/-! ## The step's frame around an instruction -/

/-- The state at which an event is carried out, in one update. -/
theorem beginStep_dropInput (s : State) : s.beginStep.dropInput =
    { s with
      out := { s.out with detachPeripherals := false, appStart := false, hookValid := none, label := none, returned := .nothing }
      env := { s.env with inputs := s.env.inputs.drop 1 } } := rfl

/-- A step row answers its effect exactly where its rule enables it. -/
theorem whenEnabled_next {s t u : State} {b : Bool} : s.whenEnabled b t = .next u ↔ b = true ∧ t = u := by
  cases b <;> simp [State.whenEnabled]

@[simp] theorem whenEnabled_true (s t : State) : s.whenEnabled true t = .next t := rfl

end Sys2Proof.Machine
end

