-- ==== Sys2Proof/Laws/Router.lean ====
section
/-! SUPPORT. Receiving: who takes a frame, what routing and polling do by the fields of the frame, and that the decoded instruction does
the same. -/

namespace Sys2Proof.Machine

theorem reception_application {s : State} (h : s.mode = .application) : s.reception = .router := by
  simp [State.reception, h]

theorem reception_poll_iff (s : State) : s.reception = .poll ↔ s.mode = .bootloader ∧ s.phase = .streaming ∧ s.waiting = true := by
  simp only [State.reception]
  split <;> simp [*]

theorem reception_router_iff (s : State) : s.reception = .router ↔ s.mode = .application := by
  simp only [State.reception]
  split
  · simp [*]
  · split <;> simp [*]

/-! ## The inbound rows by reception -/

theorem onRouter_router {s : State} (h : s.reception = .router) (w : WireFrame) (k : State → State) :
    s.onRouter w k = .next (k s) := by
  simp [State.onRouter, h]

theorem onRouter_poll {s : State} (h : s.reception = .poll) (w : WireFrame) (k : State → State) :
    s.onRouter w k = .next (s.pollFrame w) := by
  simp [State.onRouter, h]

theorem onRouter_closed {s : State} (h : s.reception = .closed) (w : WireFrame) (k : State → State) :
    s.onRouter w k = .next (s.holdFrame w) := by
  simp [State.onRouter, h]

theorem onPoll_router {s : State} (h : s.reception = .router) (w : WireFrame) (k : State → State) :
    s.onPoll w k = .next (s.routeFrame w) := by
  simp [State.onPoll, h]

theorem onPoll_poll {s : State} (h : s.reception = .poll) (w : WireFrame) (k : State → State) : s.onPoll w k = .next (k s) := by
  simp [State.onPoll, h]

theorem onPoll_closed {s : State} (h : s.reception = .closed) (w : WireFrame) (k : State → State) :
    s.onPoll w k = .next (s.holdFrame w) := by
  simp [State.onPoll, h]

theorem onRequest_router {s : State} (h : s.reception = .router) (f : CanFrame) (k : State → State) :
    s.onRequest f k = .next (k (s.latchRx f)) := onRouter_router h _ _

/-! ## Address validation (R118) -/

/-- A request too short for the address, or with another one, is dropped. -/
theorem ifAddressed_mismatch {s : State} (k : State → State)
    (h : s.rx.payload.length < 3 ∨ (s.rx.payload.drop 1).take 2 ≠ [s.ident.address.hi, s.ident.address.lo]) :
    s.ifAddressed k = s.raise .addressMismatch := by
  simp only [State.ifAddressed]
  rcases hp : s.rx.payload with _ | ⟨b0, _ | ⟨b1, _ | ⟨b2, r⟩⟩⟩
  all_goals simp only [addressOperand]
  rw [if_neg]
  intro e
  rw [hp] at h
  rcases h with h | h
  · simp at h
    omega
  · apply h
    rw [← e]
    simp

theorem ifAddressed_match {s : State} (k : State → State)
    (h : (s.rx.payload.drop 1).take 2 = [s.ident.address.hi, s.ident.address.lo]) : s.ifAddressed k = k s := by
  simp only [State.ifAddressed]
  rcases hp : s.rx.payload with _ | ⟨b0, _ | ⟨b1, _ | ⟨b2, r⟩⟩⟩
  all_goals rw [hp] at h
  all_goals simp at h
  simp only [addressOperand]
  rw [if_pos]
  cases hh : s.ident.address
  simp_all

/-- Whatever passes through the address validation either drops the request or runs its handler. -/
theorem ifAddressed_cases (s : State) (k : State → State) : s.ifAddressed k = k s ∨ s.ifAddressed k = s.raise .addressMismatch := by
  simp only [State.ifAddressed]
  split
  · exact .inr rfl
  · split
    · exact .inl rfl
    · exact .inr rfl

/-! ## Routing and polling by the fields of the frame -/

theorem routeFrame_standard (s : State) {w : WireFrame} (h : w.ext = false) : s.routeFrame w = s := by
  simp [State.routeFrame, h]

theorem pollFrame_standard (s : State) {w : WireFrame} (h : w.ext = false) : s.pollFrame w = s := by
  simp [State.pollFrame, h]

theorem routeFrame_encoded (s : State) (c : Command) (r : Bool) (h : Hash) (p : List Byte) :
    s.routeFrame (encodeFrame ⟨c, r, h, p⟩) =
      if r then s.latchRx ⟨c, r, h, p⟩
      else if c = cmdPing then (s.latchRx ⟨c, r, h, p⟩).handlePing
      else if c = cmdConfigStatus then (s.latchRx ⟨c, r, h, p⟩).handleConfigStatus
      else if c = cmdForApp then (s.latchRx ⟨c, r, h, p⟩).handleForApp
      else (s.latchRx ⟨c, r, h, p⟩).handleHook := by
  simp only [State.routeFrame, encodeFrame_ext, Bool.true_eq_false, if_false, encodeFrame_payload, decodeFrame_of_encoded, latchRx_rx]

theorem pollFrame_encoded (s : State) (c : Command) (r : Bool) (h : Hash) (p : List Byte) :
    s.pollFrame (encodeFrame ⟨c, r, h, p⟩) =
      if c = cmdBtldrAnswer ∧ r = false then
        match p with
        | [] => s.latchRx ⟨c, r, h, p⟩
        | b :: _ =>
          if b = subMoreData then (s.latchRx ⟨c, r, h, p⟩).loadChunk
          else if b = subEndData then (s.latchRx ⟨c, r, h, p⟩).endOfData
          else s.latchRx ⟨c, r, h, p⟩
      else s.latchRx ⟨c, r, h, p⟩ := by
  cases p <;> simp [State.pollFrame, encodeFrame_ext, encodeFrame_payload, decodeFrame_of_encoded, latchRx_rx]

/-- A frame that does not match the wait changes `rx` at most (R162). -/
theorem pollFrame_no_match (s : State) {w : WireFrame} (h : w.answersWait = false) :
    s.pollFrame w = if w.ext then s.latchRx (decodeFrame w.id w.payload) else s := by
  rcases wireFrame_cases w with he | ⟨c, r, hh, p, rfl⟩
  · simp [State.pollFrame, he]
  · rw [pollFrame_encoded]
    have h' : ¬ (encodeFrame ⟨c, r, hh, p⟩).answersWait = true := by simp [h]
    rw [answersWait_encoded] at h'
    simp only [encodeFrame_ext, if_true, encodeFrame_payload, decodeFrame_of_encoded]
    split
    · rename_i hc
      rcases p with _ | ⟨b, p⟩
      · rfl
      · simp only [hc, true_and, List.head?_cons, Option.some.injEq, not_or] at h'
        simp only [h'.1, h'.2, if_false]
    · rfl

/-- What polling can do: nothing, `rx` alone, or a chunk or the end on the frame in `rx` (R158). -/
theorem pollFrame_cases (s : State) (w : WireFrame) :
    s.pollFrame w = s ∨ (w.ext = true ∧ s.pollFrame w = s.latchRx (decodeFrame w.id w.payload))
      ∨ (∃ h r, w = encodeFrame ⟨cmdBtldrAnswer, false, h, subMoreData :: r⟩
          ∧ s.pollFrame w = (s.latchRx ⟨cmdBtldrAnswer, false, h, subMoreData :: r⟩).loadChunk)
      ∨ (∃ h r, w = encodeFrame ⟨cmdBtldrAnswer, false, h, subEndData :: r⟩
          ∧ s.pollFrame w = (s.latchRx ⟨cmdBtldrAnswer, false, h, subEndData :: r⟩).endOfData) := by
  rcases wireFrame_cases w with he | ⟨c, r, h, p, rfl⟩
  · exact .inl (pollFrame_standard s he)
  · right
    have hd : decodeFrame (encodeFrame ⟨c, r, h, p⟩).id (encodeFrame ⟨c, r, h, p⟩).payload = ⟨c, r, h, p⟩ := by
      simp only [encodeFrame_payload, decodeFrame_of_encoded]
    rw [pollFrame_encoded, hd]
    split
    · rename_i hc
      obtain ⟨rfl, rfl⟩ := hc
      rcases p with _ | ⟨b, p⟩
      · exact .inl ⟨rfl, rfl⟩
      · simp only
        split
        · rename_i hb
          subst hb
          exact .inr (.inl ⟨h, p, rfl, rfl⟩)
        · split
          · rename_i hb
            subst hb
            exact .inr (.inr ⟨h, p, rfl, rfl⟩)
          · exact .inl ⟨rfl, rfl⟩
    · exact .inl ⟨rfl, rfl⟩

/-! ## The decoded instruction does what the receive step does -/

theorem exec_decodeRouter (w : WireFrame) {s : State} (hr : s.reception = .router) : exec (decodeRouter w) s = .next (s.routeFrame w) := by
  rcases wireFrame_cases w with he | ⟨c, r, h, p, rfl⟩
  · have hd : decodeRouter w = .rxStandardFrame w.id w.payload := by simp [decodeRouter, he]
    rw [hd, routeFrame_standard s he]
    simp only [exec, execRxStandardFrame, onRouter_router hr]
  · rw [decodeRouter_encoded, routeFrame_encoded]
    cases r
    swap
    · simp only [if_true, exec, execRxResponseDrop, onRequest_router hr]
    simp only [Bool.false_eq_true, if_false]
    split
    · rename_i hc
      subst hc
      simp only [exec, execPing, onRequest_router hr]
    split
    · rename_i hc
      subst hc
      simp only [exec, execConfigStatus, onRequest_router hr]
    split
    · rename_i hc
      subst hc
      rcases p with _ | ⟨b, p⟩
      · simp only [decodeForApp, exec, execForAppNoHandler, onRequest_router hr, State.handleForApp]
        rfl
      · simp only [decodeForApp, State.handleForApp]
        split
        · rename_i hb
          subst hb
          simp only [exec, execForAppBoardnumRequest, onRequest_router hr]
          rfl
        split
        · rename_i hb
          subst hb
          simp only [exec, execForAppBoardnumChange, onRequest_router hr]
          rfl
        split
        · rename_i hb
          subst hb
          simp only [exec, execForAppGoBtldr, onRequest_router hr]
          rfl
        · rename_i h1 h2 h3
          simp only [exec, execForAppNoHandler, onRequest_router hr]
          simp only [State.ifAddressed, latchRx_rx, addressOperand]
          congr 1
          split
          · rfl
          · split
            · simp only [List.head?_cons, Option.some.injEq, h1, h2, h3, if_false]
            · rfl
    split
    · rename_i hc
      subst hc
      simp only [exec, execForBtldr, onRequest_router hr]
    · simp only [exec, execHook, onRequest_router hr]

theorem exec_decodePoll (w : WireFrame) {s : State} (hr : s.reception = .poll) : exec (decodePoll w) s = .next (s.pollFrame w) := by
  rcases wireFrame_cases w with he | ⟨c, r, h, p, rfl⟩
  · have hd : decodePoll w = .rxBlDiscard w := by simp [decodePoll, he]
    rw [hd, pollFrame_standard s he]
    simp [exec, execRxBlDiscard, onPoll_poll hr, he]
  · rw [decodePoll_encoded, pollFrame_encoded]
    have hd : exec (.rxBlDiscard (encodeFrame ⟨c, r, h, p⟩)) s = .next (s.latchRx ⟨c, r, h, p⟩) := by
      simp only [exec, execRxBlDiscard, onPoll_poll hr, encodeFrame_ext, if_true, encodeFrame_payload, decodeFrame_of_encoded]
    split
    · rename_i hc
      obtain ⟨rfl, rfl⟩ := hc
      rcases p with _ | ⟨b, p⟩
      · exact hd
      · simp only
        split
        · rename_i hb
          subst hb
          simp only [exec, execBtldrAnswerData, onPoll_poll hr]
        split
        · rename_i hb
          subst hb
          simp only [exec, execBtldrAnswerEnd, onPoll_poll hr]
        · exact hd
    · exact hd

/-- Everything routing a frame can do, on the state `u` whose `rx` holds it (R110 to R128). -/
inductive RouteEffect (u : State) : State → Prop
  | drop : RouteEffect u u
  | label (c : Condition) : RouteEffect u (u.raise c)
  | ping : RouteEffect u u.handlePing
  | config (index : Byte) : RouteEffect u { u with cfgIndex := index, cfgPending := true }
  | boardnumRequest : RouteEffect u u.handleBoardnumRequest
  | boardnumChange (new : Address) (hd : bothDigits new = true) :
      RouteEffect u (((u.send (appAnswerFrame u.ident.hash subBoardnumChange u.ident.address)).persistAddress new).identLoad u.roleBaseUid)
  | goBtldr (hc : u.rx.command = cmdForApp) (hr : u.rx.responseFlag = false)
      (hp : u.rx.payload.take 3 = [subGoBtldr, u.ident.address.hi, u.ident.address.lo]) : RouteEffect u u.handleGoBtldr
  | hook : RouteEffect u u.pulseHook

/-- An address that passed the validation stands in bytes 1 and 2. -/
theorem ifAddressed_effect {s : State} {k : State → State} (P : State → Prop) (hdrop : P (s.raise .addressMismatch))
    (hmatch : (∃ b r, s.rx.payload = b :: s.ident.address.hi :: s.ident.address.lo :: r) → P (k s)) : P (s.ifAddressed k) := by
  simp only [State.ifAddressed]
  rcases hp : s.rx.payload with _ | ⟨b0, _ | ⟨b1, _ | ⟨b2, r⟩⟩⟩
  all_goals simp only [addressOperand]
  all_goals try exact hdrop
  split
  · rename_i e
    exact hmatch ⟨b0, r, by rw [hp, ← e]⟩
  · exact hdrop

/-- Routing, inverted: a standard frame does nothing; any other frame goes to `rx` and then has one of the effects. -/
theorem routeFrame_effect (s : State) (w : WireFrame) :
    (w.ext = false ∧ s.routeFrame w = s)
      ∨ ∃ f, w = encodeFrame f ∧ RouteEffect (s.latchRx f) (s.routeFrame w) := by
  rcases wireFrame_cases w with he | ⟨c, r, h, p, rfl⟩
  · exact .inl ⟨he, routeFrame_standard s he⟩
  · refine .inr ⟨_, rfl, ?_⟩
    rw [routeFrame_encoded]
    split
    · exact .drop
    rename_i hr
    simp only [Bool.not_eq_true] at hr
    subst hr
    split
    · exact .ping
    split
    · simp only [State.handleConfigStatus]
      split
      · exact .label _
      · split
        · exact .config _
        · exact .label _
    split
    · rename_i hc
      subst hc
      simp only [State.handleForApp]
      refine ifAddressed_effect _ (.label _) ?_
      rintro ⟨b, r, hp⟩
      split
      · exact .boardnumRequest
      split
      · simp only [State.handleBoardnumChange]
        split
        · exact .label _
        · split
          · exact .boardnumChange _ ‹_›
          · exact .drop
      split
      · rename_i hb
        refine .goBtldr rfl rfl ?_
        rw [hp] at hb ⊢
        simp only [List.head?_cons, Option.some.injEq] at hb
        subst hb
        rfl
      · exact .drop
    · exact .hook

end Sys2Proof.Machine
end

