-- ==== Sys2Proof/Laws/Step.lean ====
section
/-! SUPPORT. Everything a step can do, said once: the effects of the node's turn, of the agent's turn and of the environment's events. -/

namespace Sys2Proof.Machine

/-! ## The step at its event -/

/-- What a turn comes to. -/
def Turn.outcome : Turn → Host.Outcome State Fault Refusal
  | .run i t => exec i t
  | .rest t => .next t
  | .fault f => .fault f
  | .refuse r => .refused r

/-- The step by its event, at the state from which the event has been taken. -/
theorem step_eq (s : State) : step s = (s.atTurn.eventTurn s.nextEvent).outcome := rfl

/-- What the node's turn does to the state it is taken at (R110, R141, R142, R151). -/
inductive NodeEffect (u : State) : State → Prop
  | route (w : WireFrame) (rest : List WireFrame) (hm : u.mode = .application) (hq : u.rxQueue = w :: rest) (hw : w.wf = true) :
      NodeEffect u (({ u with rxQueue := rest } : State).routeFrame w)
  | emit (hm : u.mode = .application) (hq : u.rxQueue = []) (ha : u.cfgEmitActive = true) : NodeEffect u u.emitConfig
  | drain (hm : u.mode = .application) (hq : u.rxQueue = []) (ha : u.cfgEmitActive = false) (hp : u.cfgPending = true) :
      NodeEffect u u.drainConfig
  | restApplication (hm : u.mode = .application) (hq : u.rxQueue = []) (ha : u.cfgEmitActive = false) (hp : u.cfgPending = false) :
      NodeEffect u u
  | idle (hm : u.mode = .bootloader) (hp : u.phase = .idle) : NodeEffect u u
  | announce (hm : u.mode = .bootloader) (hp : u.phase = .awaitingStart) : NodeEffect u u.announce
  | request (hm : u.mode = .bootloader) (hp : u.phase = .streaming) (hw : u.waiting = false) (hc : u.chunkExhausted = true) :
      NodeEffect u u.requestChunk
  | pull (hm : u.mode = .bootloader) (hp : u.phase = .streaming) (hw : u.waiting = false) (hc : u.chunkExhausted = false) :
      NodeEffect u u.pullByte
  | poll (w : WireFrame) (rest : List WireFrame) (hm : u.mode = .bootloader) (hp : u.phase = .streaming) (hwt : u.waiting = true)
      (hq : u.rxQueue = w :: rest) (hw : w.wf = true) : NodeEffect u (({ u with rxQueue := rest } : State).pollFrame w)
  | timeout (hm : u.mode = .bootloader) (hp : u.phase = .streaming) (hw : u.waiting = true) (ht : u.blTimeoutEnabled = true) :
      NodeEffect u u.abandonTransfer
  | blocked (hm : u.mode = .bootloader) (hp : u.phase = .streaming) (hw : u.waiting = true) (hq : u.rxQueue = []) : NodeEffect u u
  | finish (hm : u.mode = .bootloader) (hp : u.phase = .finished) : NodeEffect u u.finishTransfer
  | handOff (hm : u.mode = .bootloader) (hp : u.phase = .handoffToApplication) : NodeEffect u u.handOff

/-- What every other event does. -/
inductive EventEffect (u : State) : Event → State → Prop
  | arrive (w : WireFrame) (hw : w.wf = true) :
      EventEffect u (.arrive w) { u with rxQueue := u.rxQueue ++ [w], agent := { u.agent with inbox := u.agent.inbox ++ [w] } }
  | lose (k : Nat) : EventEffect u (.lose k) { u with rxQueue := u.rxQueue.eraseIdx k }
  | timer (expired first : Bool) :
      EventEffect u (.timer expired first) { u with env := { u.env with timeoutExpired := expired, timeoutFirst := first } }
  | reset : EventEffect u .reset u.powerCycle
  | agentStart (h : u.agStartEnabled = true) : EventEffect u .agent u.startServing
  | agentServe (h : u.agServeEnabled = true) : EventEffect u .agent u.serveRequest
  | agentIgnores (h1 : u.agStartEnabled = false) (h2 : u.agServeEnabled = false) : EventEffect u .agent u.agentTakes
  | agentLose (k : Nat) : EventEffect u (.agentLose k) { u with agent := { u.agent with inbox := u.agent.inbox.eraseIdx k } }
  | agentImage (image : List Byte) :
      EventEffect u (.agentImage image) { u with agent := { u.agent with image := image, pos := 0, phase := .agIdle } }
  | callNothing (i : Instr) : EventEffect u (.call i) u
  | callReturns (i : Instr) (v : Returned) : EventEffect u (.call i) (u.giveBack v)
  | callSends (i : Instr) (f : CanFrame) (hm : u.mode = .application) (hi : encode i = some (encodeFrame f))
      (hc : i.context = some .transmit) (hf : f.wf = true) : EventEffect u (.call i) (u.send f)
  | callAgentSends (i : Instr) (f : CanFrame) (hi : encode i = some (encodeFrame f)) (hc : i.context = some .agentTransmit)
      (hf : f.wf = true) : EventEffect u (.call i) (u.agentSend f)

/-- A row that is enabled where the turn takes it has its effect. -/
theorem next_of_whenEnabled {s t u : State} {b : Bool} (h : s.whenEnabled b t = .next u) : t = u := (whenEnabled_next.mp h).2

/-- The router takes a frame: the decoded instruction does what routing does. -/
theorem receiveTurn_router {s t : State} {w : WireFrame} (hr : s.reception = .router) (h : (s.receiveTurn .router w).outcome = .next t) :
    w.wf = true ∧ s.routeFrame w = t := by
  by_cases hw : w.wf = true
  · simp only [State.receiveTurn, decode_router_of_wf hw, Turn.outcome, exec_decodeRouter w hr, Host.Outcome.next.injEq] at h
    exact ⟨hw, h⟩
  · exfalso
    simp only [WireFrame.wf, decide_eq_true_eq] at hw
    simp [State.receiveTurn, decode, show 8 < w.payload.length by omega, Turn.outcome] at h

/-- The waiting receiver takes a frame. -/
theorem receiveTurn_poll {s t : State} {w : WireFrame} (hr : s.reception = .poll) (h : (s.receiveTurn .poll w).outcome = .next t) :
    w.wf = true ∧ s.pollFrame w = t := by
  by_cases hw : w.wf = true
  · simp only [State.receiveTurn, decode_poll_of_wf hw, Turn.outcome, exec_decodePoll w hr, Host.Outcome.next.injEq] at h
    exact ⟨hw, h⟩
  · exfalso
    simp only [WireFrame.wf, decide_eq_true_eq] at hw
    simp [State.receiveTurn, decode, show 8 < w.payload.length by omega, Turn.outcome] at h

theorem applicationTurn_next {u t : State} (hm : u.mode = .application) (h : u.applicationTurn.outcome = .next t) : NodeEffect u t := by
  unfold State.applicationTurn at h
  split at h
  · rename_i w rest hq
    obtain ⟨hw, rfl⟩ := receiveTurn_router (s := { u with rxQueue := rest }) (reception_application hm) h
    exact .route w rest hm hq hw
  · rename_i hq
    split at h
    · rename_i ha
      obtain rfl := next_of_whenEnabled (s := u) h
      exact .emit hm hq ha
    · rename_i ha
      simp only [Bool.not_eq_true] at ha
      split at h
      · rename_i hp
        obtain rfl := next_of_whenEnabled (s := u) h
        exact .drain hm hq ha hp
      · rename_i hp
        simp only [Bool.not_eq_true] at hp
        cases h
        exact .restApplication hm hq ha hp

theorem waitTurn_next {u t : State} (hm : u.mode = .bootloader) (hp : u.phase = .streaming) (hw : u.waiting = true)
    (h : u.waitTurn.outcome = .next t) : NodeEffect u t := by
  unfold State.waitTurn at h
  split at h
  · rename_i hq
    split at h
    · rename_i ht
      obtain rfl := next_of_whenEnabled (s := u) h
      exact .timeout hm hp hw ht
    · cases h
      exact .blocked hm hp hw hq
  · rename_i w rest hq
    split at h
    · rename_i ht
      obtain rfl := next_of_whenEnabled (s := u) h
      simp only [Bool.and_eq_true] at ht
      exact .timeout hm hp hw ht.1
    · obtain ⟨hw', rfl⟩ := receiveTurn_poll (s := { u with rxQueue := rest }) ((reception_poll_iff _).mpr ⟨hm, hp, hw⟩) h
      exact .poll w rest hm hp hw hq hw'

theorem bootloaderTurn_next {u t : State} (hm : u.mode = .bootloader) (h : u.bootloaderTurn.outcome = .next t) : NodeEffect u t := by
  unfold State.bootloaderTurn at h
  split at h
  · rename_i hp
    cases h
    exact .idle hm hp
  · rename_i hp
    obtain rfl := next_of_whenEnabled (s := u) h
    exact .announce hm hp
  · rename_i hp
    split at h
    · rename_i hw
      exact waitTurn_next hm hp hw h
    · rename_i hw
      simp only [Bool.not_eq_true] at hw
      split at h
      · rename_i hc
        obtain rfl := next_of_whenEnabled (s := u) h
        exact .request hm hp hw hc
      · rename_i hc
        simp only [Bool.not_eq_true] at hc
        obtain rfl := next_of_whenEnabled (s := u) h
        exact .pull hm hp hw hc
  · rename_i hp
    obtain rfl := next_of_whenEnabled (s := u) h
    exact .finish hm hp
  · rename_i hp
    obtain rfl := next_of_whenEnabled (s := u) h
    exact .handOff hm hp
  · cases h

/-- The node's turn, inverted. -/
theorem nodeTurn_next {u t : State} (h : u.nodeTurn.outcome = .next t) : NodeEffect u t := by
  unfold State.nodeTurn at h
  split at h
  · exact applicationTurn_next ‹_› h
  · exact bootloaderTurn_next ‹_› h

/-- A call of a collaborator, inverted. -/
theorem callTurn_next {u t : State} (i : Instr)
    (h : (u.callTurn i).outcome = .next t) : EventEffect u (.call i) t := by
  simp only [State.callTurn] at h
  split at h
  · cases h
    exact .callNothing i
  rename_i hc
  split at h
  · cases h
    exact .callNothing i
  rename_i hm
  split at h
  · cases h
  rename_i hw
  simp only [Bool.not_eq_false] at hw
  cases i <;> simp only [callable, not_true_eq_false] at hc
  case encode f => cases h; exact .callReturns _ _
  case decode id p => cases h; exact .callReturns _ _
  case genUid b a => cases h; exact .callReturns _ _
  case serializeUid v => cases h; exact .callReturns _ _
  case genHash v => cases h; exact .callReturns _ _
  case agBuildRequest r => cases h; exact .callReturns _ _
  case agInterpret f b => cases h; exact .callReturns _ _
  case dataFrame d => cases h; exact .callReturns _ _
  case agentForAppRequest => cases h; exact .callAgentSends _ _ rfl rfl hw
  case agentDataFrame => cases h; exact .callAgentSends _ _ rfl rfl hw
  case agentEndFrame => cases h; exact .callAgentSends _ _ rfl rfl hw
  all_goals
    cases h
    have hm' : u.mode = .application := by
      by_contra hn
      exact hm ⟨rfl, hn⟩
    exact .callSends _ _ hm' rfl rfl hw

/-- A call whose frame fits answers. -/
theorem callTurn_answers (u : State) {i : Instr} (h : callFits i = true) : ∃ t, (u.callTurn i).outcome = .next t := by
  simp only [State.callTurn]
  split
  · exact ⟨_, rfl⟩
  rename_i hc
  split
  · exact ⟨_, rfl⟩
  rw [if_neg (by simp [h])]
  cases i <;> simp only [callable, not_true_eq_false] at hc
  all_goals exact ⟨_, rfl⟩

/-- A step that answers is one of the listed effects: of the node's turn, or of another event. -/
theorem step_next {s t : State} (h : step s = .next t) :
    (s.nextEvent = .node ∧ NodeEffect s.atTurn t) ∨ (s.nextEvent ≠ .node ∧ EventEffect s.atTurn s.nextEvent t) := by
  rw [step_eq] at h
  generalize hu : s.atTurn = u at h
  cases he : s.nextEvent
  case node =>
    rw [he] at h
    exact .inl ⟨rfl, nodeTurn_next h⟩
  all_goals
    rw [he] at h
    refine .inr ⟨by simp, ?_⟩
  case arrive w =>
    simp only [State.eventTurn] at h
    split at h
    · cases h
      exact .arrive w ‹_›
    · cases h
  case lose k => cases h; exact .lose k
  case timer e f => cases h; exact .timer e f
  case reset => cases h; exact .reset
  case agent =>
    simp only [State.eventTurn, State.agentTurn] at h
    cases h1 : u.agStartEnabled
    · simp only [h1, Bool.false_eq_true, if_false] at h
      cases h2 : u.agServeEnabled
      · simp only [h2, Bool.false_eq_true, if_false] at h
        cases h
        exact .agentIgnores h1 h2
      · simp only [h2, if_true] at h
        obtain rfl := next_of_whenEnabled (s := u) h
        exact .agentServe h2
    · simp only [h1, if_true] at h
      obtain rfl := next_of_whenEnabled (s := u) h
      exact .agentStart h1
  case agentLose k => cases h; exact .agentLose k
  case agentImage l => cases h; exact .agentImage l
  case call i => exact callTurn_next i h

/-! ## What no step changes, and runs -/

/-- Same parameters, same script. -/
def State.sameSetting (s t : State) : Prop := t.params = s.params ∧ t.env.inputs = s.env.inputs

theorem markSetupNotDone_setting (u : State) : u.sameSetting u.markSetupNotDone := by
  unfold State.markSetupNotDone
  split <;> exact ⟨rfl, rfl⟩

theorem routeFrame_setting (u : State) (w : WireFrame) : u.sameSetting (u.routeFrame w) := by
  rcases routeFrame_effect u w with ⟨_, h⟩ | ⟨f, rfl, h⟩
  · rw [h]
    exact ⟨rfl, rfl⟩
  · have hu : u.sameSetting (u.latchRx f) := ⟨rfl, rfl⟩
    generalize u.latchRx f = v at *
    generalize u.routeFrame (encodeFrame f) = r at *
    have hv : v.sameSetting r := by
      cases h
      case goBtldr => exact ⟨(markSetupNotDone_setting v.pulseDetach).1, (markSetupNotDone_setting v.pulseDetach).2⟩
      all_goals exact ⟨rfl, rfl⟩
    exact ⟨hv.1.trans hu.1, hv.2.trans hu.2⟩

theorem pollFrame_setting (u : State) (w : WireFrame) : u.sameSetting (u.pollFrame w) := by
  rcases pollFrame_cases u w with h | ⟨-, h⟩ | ⟨_, _, _, h⟩ | ⟨_, _, _, h⟩ <;> rw [h] <;> exact ⟨rfl, rfl⟩

theorem commitPage_setting (u : State) : u.sameSetting u.commitPage := by
  unfold State.commitPage
  split <;> exact ⟨rfl, rfl⟩

theorem nodeEffect_setting {u t : State} (h : NodeEffect u t) : u.sameSetting t := by
  cases h
  case route w rest _ _ _ => exact routeFrame_setting { u with rxQueue := rest } w
  case poll w rest _ _ _ _ _ => exact pollFrame_setting { u with rxQueue := rest } w
  case emit =>
    simp only [State.emitConfig]
    split <;> exact ⟨rfl, rfl⟩
  case drain =>
    simp only [State.drainConfig]
    split <;> exact ⟨rfl, rfl⟩
  case pull =>
    simp only [State.pullByte]
    split
    · exact commitPage_setting _
    · exact ⟨rfl, rfl⟩
  case finish =>
    simp only [State.finishTransfer]
    split <;> exact commitPage_setting _
  all_goals exact ⟨rfl, rfl⟩

theorem eventEffect_setting {u t : State} {e : Event} (h : EventEffect u e t) : u.sameSetting t := by
  cases h
  case agentServe =>
    simp only [State.serveRequest]
    split <;> exact ⟨rfl, rfl⟩
  all_goals exact ⟨rfl, rfl⟩

/-- No step writes the parameters, and each takes one event from the script. -/
theorem step_setting {s t : State} (h : step s = .next t) : t.params = s.params ∧ t.env.inputs = s.env.inputs.drop 1 := by
  rcases step_next h with ⟨_, h⟩ | ⟨_, h⟩
  · exact nodeEffect_setting h
  · exact eventEffect_setting h

/-- A run of one step more begins with the step. -/
theorem run_step (M : Host.Core) (n : Nat) {s t : M.State} (h : M.step s = .next t) : M.run (n + 1) s = M.run n t := by
  conv_lhs => unfold Host.Core.run
  rw [h]

/-- A run that answers began with a step that answers. -/
theorem run_split (M : Host.Core) {n : Nat} {s t : M.State} (h : M.run (n + 1) s = .next t) :
    ∃ u, M.step s = .next u ∧ M.run n u = .next t := by
  unfold Host.Core.run at h
  split at h
  · exact ⟨_, ‹_›, h⟩
  · cases h
  · cases h

end Sys2Proof.Machine
end

