-- ==== Sys2Proof/Laws/Transfer.lean ====
section
/-! SUPPORT. The chunk, the page and the agent's inbox during a transfer: what `LOAD_CHUNK`, `BL_PULL` and `PAGE_COMMIT` do to the
bytes of an image, and what an agent does with the receiver's frames. -/

namespace Sys2Proof.Machine

/-! ## The chunk -/

/-- `overlay` keeps the length. -/
theorem overlay_length (new old : List Byte) : (overlay new old).length = old.length := by
  simp only [overlay, List.length_append, List.length_take, List.length_drop]
  omega

/-- A byte of an overlay: the new one where there is one, else the old one. -/
theorem overlay_get (new old : List Byte) (hn : new.length ≤ old.length) (j : Nat) :
    (overlay new old)[j]? = if j < new.length then new[j]? else old[j]? := by
  simp only [overlay, List.take_of_length_le hn]
  split
  · rw [List.getElem?_append_left ‹_›]
  · rw [List.getElem?_append_right (by omega), List.getElem?_drop]
    congr 1
    omega

/-- Inside the array `chunkByte` is the byte there. -/
theorem chunkByte_nat (l : List Byte) (k : Nat) (b : Byte) (h : l[k]? = some b) : chunkByte l (Int.ofNat k) = b := by
  simp [chunkByte, List.getD, h]

/-- After `LOAD_CHUNK` of a `DATA_FRAME` the chunk holds exactly its bytes (R194). -/
theorem loadChunk_chunkLeft (d : List Byte) (s : State) (hl : s.session.localChunk.length = 7) (h1 : 1 ≤ d.length)
    (h2 : d.length + s.params.chunkCursorStart.val ≤ 7) (hx : s.rx.payload = 5 :: dataFrameRest s.params d) :
    s.loadChunk.chunkLeft = d := by
  simp only [State.chunkLeft, Nat.sub_self, List.drop_zero, State.loadChunk, hx,
    List.length_cons, List.drop_succ_cons]
  simp only [dataFrameRest]
  have hc : s.params.chunkCursorStart = 1 ∨ s.params.chunkCursorStart = 0 := by
    rcases s.params.chunkCursorStart with ⟨_ | _ | n, h⟩
    · right; rfl
    · left; rfl
    · omega
  rcases hc with hc | hc
  · simp only [hc, if_true, List.length_append, List.length_cons, List.length_nil] at h2 ⊢
    simp only [overlay, List.length_append, List.length_cons, List.length_nil]
    have : (max (((d.length + (0 + 1) + 1 : Nat) : Int) - 2) (((1 : Fin 2).val : Int) - 1) + 1 - ((1 : Fin 2).val : Int)).toNat
        = d.length := by
      simp
      omega
    rw [this]
    simp at h2
    rw [List.take_append_of_le_length (by simp; omega), List.take_take, List.take_append_of_le_length (by omega),
      List.take_of_length_le]
    omega
  · simp only [hc, Fin.reduceEq, if_false] at h2 ⊢
    simp at h2
    have : (max (((d.length + 1 : Nat) : Int) - 2) (((0 : Fin 2).val : Int) - 1) + 1 - ((0 : Fin 2).val : Int)).toNat = d.length := by
      simp
      omega
    rw [this]
    simp only [overlay]
    rw [List.take_append_of_le_length (by simp; omega), List.take_take, List.take_of_length_le]
    omega

/-- A used-up chunk has nothing left. -/
theorem chunkLeft_exhausted {u : State} (hl : u.chunkLegal) (hx : u.chunkExhausted = true) : u.chunkLeft = [] := by
  obtain ⟨c1, c2, c3, c4⟩ := hl
  simp only [State.chunkExhausted, decide_eq_true_eq] at hx
  simp only [State.chunkLeft]
  apply List.drop_eq_nil_of_le
  simp only [List.length_take]
  omega

/-- A chunk that is not used up has a next byte, the one `BL_PULL` takes (R163). -/
theorem chunkLeft_next {u : State} (hl : u.chunkLegal) (hx : u.chunkExhausted = false) :
    ∃ b, u.session.localChunk[u.session.chunkCursor - u.params.chunkCursorStart.val]? = some b
      ∧ chunkByte u.session.localChunk ((u.session.chunkCursor : Int) - (u.params.chunkCursorStart.val : Int)) = b
      ∧ u.chunkLeft = b :: (u.session.localChunk.take (u.session.chunkLimit + 1 - u.params.chunkCursorStart.val).toNat).drop
        (u.session.chunkCursor + 1 - u.params.chunkCursorStart.val) := by
  obtain ⟨c1, c2, c3, c4⟩ := hl
  simp only [State.chunkExhausted, decide_eq_false_iff_not] at hx
  have hk : u.session.chunkCursor - u.params.chunkCursorStart.val < u.session.localChunk.length := by omega
  refine ⟨_, List.getElem?_eq_getElem hk, ?_, ?_⟩
  · rw [← chunkByte_nat _ _ _ (List.getElem?_eq_getElem hk)]
    congr 1
    simp only [Int.ofNat_eq_natCast]
    omega
  · simp only [State.chunkLeft]
    rw [List.drop_eq_getElem_cons (by simp; omega), List.getElem_take]
    congr 2
    omega

/-! ## The page -/

/-- A byte appended to the page buffer. -/
theorem appended_pull {u : State} {m : Memory} {pulled : List Byte} (h : u.appended m pulled) (hp : u.pageLegal) (b : Byte)
    (cursor : Nat) :
    ({ u with session := { u.session with
        chunkCursor := cursor
        pageBuffer := u.session.pageBuffer.set u.session.writeCursor b
        writeCursor := u.session.writeCursor + 1 } } : State).appended m (pulled ++ [b]) := by
  obtain ⟨a1, a2, a3, a4⟩ := h
  obtain ⟨g1, g2, g3⟩ := hp
  refine ⟨?_, ?_, ?_, a4⟩
  · simp only [List.length_append, List.length_cons, List.length_nil, a1]
    omega
  · show State.flashHolds _ ((pulled ++ [b]).take (u.session.pageIndex * u.params.pageSize))
    rw [List.take_append_of_le_length (by omega)]
    exact a2
  · show (u.session.pageBuffer.set u.session.writeCursor b).take (u.session.writeCursor + 1)
      = (pulled ++ [b]).drop (u.session.pageIndex * u.params.pageSize)
    rw [List.drop_append_of_le_length (by omega), ← a3, List.take_add_one, List.take_set_of_le (Nat.le_refl _),
      List.getElem?_set_self (by omega)]
    rfl

/-- What a commit does to FLASH: the buffer after what is there, nothing else. -/
theorem flash_commit {u : State} {m : Memory} {bytes : List Byte} (hw : u.mem.wf = true)
    (hl : u.session.pageBuffer.length = u.params.pageSize) (hlen : bytes.length = u.session.pageIndex * u.params.pageSize)
    (hf : u.flashHolds bytes) (he : u.flashElsewhere m bytes.length) (v : State)
    (hv : v.mem = u.mem.writeList .flash (pageAddress u.params u.session.pageIndex) u.session.pageBuffer)
    (hvp : v.params = u.params) :
    v.flashHolds (bytes ++ u.session.pageBuffer) ∧ v.flashElsewhere m ((u.session.pageIndex + 1) * u.params.pageSize) := by
  refine ⟨?_, ?_⟩
  · intro k hk
    rw [hv, hvp]
    by_cases h : k < bytes.length
    · rw [read_writeList_other _ _ (.inr (.inl (by simp only [pageAddress]; omega))), hf k h, List.getElem?_append_left h]
    · rw [List.getElem?_append_right (by omega)]
      rw [List.length_append] at hk
      have : u.params.flashAppBase + k = pageAddress u.params u.session.pageIndex + (k - bytes.length) := by
        simp only [pageAddress]
        omega
      rw [this, read_writeList_inside hw _ _ _ (by omega)]
  · intro a ha
    rw [hvp, Nat.add_mul] at ha
    rw [hv, read_writeList_other _ _ (.inr ?_)]
    · exact he a (by omega)
    · simp only [pageAddress, hl]
      omega

/-! ## The agent's inbox -/

/-- The agent's oldest frame, decoded. -/
theorem agentFrame_wire {s : State} {c : Command} {r : Bool} {h : Hash} {p : List Byte} {rest : List WireFrame}
    (hi : s.agent.inbox = wire (c ++ BitVec.ofBool r) h p :: rest) : s.agentFrame = some ⟨c, r, h, p⟩ := by
  simp only [State.agentFrame, hi]
  rw [← encodeFrame_eq_wire, encodeFrame_ext, if_pos rfl, encodeFrame_payload, decodeFrame_of_encoded]

/-- With nothing in its inbox the agent receives nothing. -/
theorem agentReceives_nil {s : State} (h : s.agent.inbox = []) (sub : Byte) : s.agentReceives sub = false := by
  simp [State.agentReceives, State.agentFrame, h]

/-- A receiver's frame in its inbox is received as what its byte 0 says. -/
theorem agentReceives_receiver {s : State} {h : Hash} {b : Byte} {p : List Byte} {rest : List WireFrame}
    (hi : s.agent.inbox = wire 0x00A3#13 h (b :: p) :: rest) (sub : Byte) : s.agentReceives sub = (some b == some sub) := by
  have h' : s.agent.inbox = wire ((0x051 : Command) ++ BitVec.ofBool true) h (b :: p) :: rest := hi
  simp [State.agentReceives, agentFrame_wire h']

/-- With nothing in its inbox the agent takes nothing. -/
theorem agentTakes_nil {s : State} (h : s.agent.inbox = []) : s.agentTakes = s := by
  rcases s with ⟨_, _, _, _, _, _, _, _, _, _, _, _, _, _, _, _, _, ⟨_, _, _, _, inbox, _⟩, _, _⟩
  simp only at h
  subst h
  rfl

end Sys2Proof.Machine
end

