-- ==== Sys2Proof/Laws/Invariant.lean ====
section
/-! SUPPORT. Each operation keeps the invariant of Sys2Proof/Safety.lean: one lemma per operation. -/

namespace Sys2Proof.Machine

/-- A commit leaves the mode alone. -/
theorem commitPage_mode (s : State) : s.commitPage.mode = s.mode := by
  simp only [State.commitPage]
  split <;> rfl

/-- A step begins. -/
theorem inv_atTurn {s : State} (h : s.Inv) : s.atTurn.Inv :=
  ⟨h.params, h.memory, h.identity, h.sequencing, h.emission, h.session, h.frames⟩

/-- The transceiver may hold any frames of at most eight bytes. -/
theorem inv_queue {s : State} (h : s.Inv) {q : List WireFrame} (hq : ∀ w ∈ q, w.wf = true) : ({ s with rxQueue := q } : State).Inv :=
  ⟨h.params, h.memory, h.identity, h.sequencing, h.emission, h.session, ⟨h.frames.1, h.frames.2.1, hq, h.frames.2.2.2⟩⟩

/-- A frame goes to `rx`. -/
theorem inv_latchRx {s : State} (h : s.Inv) {f : CanFrame} (hf : f.wf = true) : (s.latchRx f).Inv :=
  ⟨h.params, h.memory, h.identity, h.sequencing, h.emission, h.session, ⟨hf, h.frames.2⟩⟩

/-- Outputs other than `TX`. -/
theorem inv_out {s : State} (h : s.Inv) {o : Outputs} (ho : o.trace = s.out.trace) : ({ s with out := o } : State).Inv :=
  ⟨h.params, h.memory, h.identity, h.sequencing, h.emission, h.session, ⟨h.frames.1, h.frames.2.1, h.frames.2.2.1,
      by rw [ho]; exact h.frames.2.2.2.1, h.frames.2.2.2.2⟩⟩

/-- The node sends a frame. -/
theorem inv_send {s : State} (h : s.Inv) {f : CanFrame} (hf : f.wf = true) : (s.send f).Inv := by
  refine ⟨h.params, h.memory, h.identity, h.sequencing, h.emission, h.session, ⟨h.frames.1, hf, h.frames.2.2.1, ?_, ?_⟩⟩
  · intro w hw
    simp only [send_trace, List.mem_append, List.mem_singleton] at hw
    rcases hw with hw | rfl
    · exact h.frames.2.2.2.1 w hw
    · exact ⟨hf, rfl⟩
  · intro w hw
    simp only [send_inbox, List.mem_append, List.mem_singleton] at hw
    rcases hw with hw | rfl
    · exact h.frames.2.2.2.2 w hw
    · exact hf

/-- The agent sends a frame. -/
theorem inv_agentSend {s : State} (h : s.Inv) {f : CanFrame} (hf : f.wf = true) : (s.agentSend f).Inv := by
  refine ⟨h.params, h.memory, h.identity, h.sequencing, h.emission, h.session, ⟨h.frames.1, h.frames.2.1, ?_, h.frames.2.2.2.1,
      h.frames.2.2.2.2⟩⟩
  intro w hw
  simp only [agentSend_rxQueue, List.mem_append, List.mem_singleton] at hw
  rcases hw with hw | rfl
  · exact h.frames.2.2.1 w hw
  · exact hf

/-- The agent changes, its inbox only by losing frames. -/
theorem inv_agent {s : State} (h : s.Inv) {a : Agent} (ha : ∀ w ∈ a.inbox, w ∈ s.agent.inbox) : ({ s with agent := a } : State).Inv :=
  ⟨h.params, h.memory, h.identity, h.sequencing, h.emission, h.session, ⟨h.frames.1, h.frames.2.1, h.frames.2.2.1, h.frames.2.2.2.1,
      fun w hw => h.frames.2.2.2.2 w (ha w hw)⟩⟩

/-- Every row of the table has eight bytes (R6), a stray one too. -/
theorem tableRow_length {p : Params} (hp : p.tableWf = true) (i k : Nat) : (tableRow p i k).length = 8 := by
  simp only [tableRow]
  split
  · rename_i row h
    simp only [Params.tableWf, Bool.and_eq_true, List.all_eq_true, decide_eq_true_eq] at hp
    rw [Option.bind_eq_bind, Option.bind_eq_some_iff] at h
    obtain ⟨t, ht, hr⟩ := h
    exact (hp.2 t (List.mem_of_getElem? ht)).2 row (List.mem_of_getElem? hr)
  · simp

/-- The parameters' table has its shape. -/
theorem wf_table {s : State} (h : s.Inv) : s.params.tableWf = true := by
  have := h.params; simp only [Params.wf, Bool.and_eq_true] at this; tauto

/-- A page is not empty (R7). -/
theorem wf_page {s : State} (h : s.Inv) : 1 ≤ s.params.pageSize := by
  have := h.params; simp only [Params.wf, Bool.and_eq_true, decide_eq_true_eq] at this; tauto

/-- The three persisted bytes have three addresses (R7). -/
theorem wf_ne {s : State} (h : s.Inv) : s.params.nvAddrHiOffset ≠ s.params.nvAddrLoOffset
    ∧ s.params.nvAddrHiOffset ≠ s.params.nvSetupFlagOffset ∧ s.params.nvAddrLoOffset ≠ s.params.nvSetupFlagOffset := by
  have := h.params; simp only [Params.wf, Bool.and_eq_true, bne_iff_ne] at this; tauto

/-- A frame of free values has at most eight bytes. -/
theorem freeFrame_wf (d r : Nat) : (freeFrame d r).wf = true := by
  have : Config.freeValue d r 3 % 9 ≤ 8 := by omega
  simpa [freeFrame, CanFrame.wf, freeBytes] using this

/-- `IDENT_LOAD` with the running role's constant makes the identity current. -/
theorem identLoad_current (s : State) (b : Uid) (h : b = s.roleBaseUid) : (s.identLoad b).identityCurrent := by
  subst h; exact ⟨rfl, rfl, rfl, rfl⟩

/-- `IDENT_LOAD` with the running role's constant. -/
theorem inv_identLoad {s : State} (h : s.Inv) (b) (hb : b = s.roleBaseUid) : (s.identLoad b).Inv :=
  ⟨h.params, h.memory, identLoad_current s b hb, h.sequencing, h.emission, h.session, h.frames⟩

/-- A new board address is persisted and the identity recomputed. -/
theorem inv_boardnum {s : State} (h : s.Inv) (a : Address) : ((s.persistAddress a).identLoad s.roleBaseUid).Inv :=
  ⟨h.params, memory_wf_write (memory_wf_write h.memory .nv s.params.nvAddrHiOffset a.hi) .nv s.params.nvAddrLoOffset a.lo,
      identLoad_current _ _ rfl, h.sequencing, h.emission, h.session, h.frames⟩

/-- An emptied page buffer, with the cursor at its start, is legal (R22). -/
theorem emptyPage_legal {s : State} (hp : 1 ≤ s.params.pageSize)
    (hs : s.session.pageBuffer = List.replicate s.params.pageSize 0xFF) (hc : s.session.writeCursor = 0) : s.pageLegal := by
  refine ⟨by rw [hs, List.length_replicate], by omega, fun i _ hi => ?_⟩
  rw [hs, List.getElem?_replicate, if_pos hi]

/-- `BL_ENTER`. -/
theorem inv_enter {s : State} (h : s.Inv) : s.enterBootloader.Inv := by
  have hp := wf_page h
  refine ⟨h.params, h.memory, ⟨rfl, rfl, rfl, rfl⟩, ?_, ?_, ?_, h.frames⟩
  · refine ⟨by simp, by simp, by simp⟩
  · refine ⟨by simp, by simp⟩
  · intro _
    refine ⟨⟨?_, ?_, ?_, ?_⟩, ⟨?_, ?_⟩, ?_, emptyPage_legal hp rfl rfl⟩
    · simp [State.enterBootloader, freeBytes]
    · have := s.params.chunkCursorStart.isLt; show _ ≤ 1; exact Nat.le_of_lt_succ this
    · show ((1 : Nat) : Int) ≤ 0 + 1; omega
    · show (0 : Int) ≤ 6; omega
    · exact ⟨fun h' => (by cases h'), fun h' => by rcases h' with h' | h' <;> cases h'⟩
    · intro _; rfl
    · exact Nat.zero_le _

/-- `BL_HANDOFF`. -/
theorem inv_handOff {s : State} (h : s.Inv) : s.handOff.Inv := by
  refine ⟨h.params, h.memory, ⟨rfl, rfl, rfl, rfl⟩, ?_, ?_, ?_, h.frames⟩
  · exact ⟨by simp, by simp, by simp⟩
  · exact ⟨by simp, by simp⟩
  · intro hm; cases hm

/-- `RESET`. -/
theorem inv_powerCycle {s : State} (h : s.Inv) : s.powerCycle.Inv := by
  refine ⟨h.params, h.memory, ⟨rfl, rfl, rfl, rfl⟩, ?_, ?_, ?_, ?_⟩
  · exact ⟨by simp [State.powerCycle], by simp [State.powerCycle], by simp [State.powerCycle]⟩
  · exact ⟨by simp [State.powerCycle], by simp [State.powerCycle]⟩
  · intro hm; cases hm
  · refine ⟨freeFrame_wf _ _, freeFrame_wf _ _, h.frames.2.2.1, ?_, h.frames.2.2.2.2⟩
    intro w hw; cases hw

/-- The setup flag is none of the address bytes. -/
theorem inv_markSetupNotDone {s : State} (h : s.Inv) : s.markSetupNotDone.Inv := by
  simp only [State.markSetupNotDone]
  split
  · obtain ⟨h1, h2, h3⟩ := wf_ne h
    refine ⟨h.params, memory_wf_write h.memory _ _ _, ?_, h.sequencing, h.emission, h.session, h.frames⟩
    refine ⟨?_, h.identity.2⟩
    show s.ident.address = _
    rw [h.identity.1]
    simp only [State.persistedAddress, writeNv_params, writeNv_mem]
    rw [readNv_write_other _ (.inr h2), readNv_write_other _ (.inr h3)]
  · exact h

/-- The router takes a frame. -/
theorem inv_route {s : State} (h : s.Inv) (w : WireFrame) (hm : s.mode = .application) (hw : w.wf = true) : (s.routeFrame w).Inv := by
  rcases routeFrame_effect s w with ⟨_, h'⟩ | ⟨f, hf, he⟩
  · rw [h']; exact h
  · generalize s.routeFrame w = v at *
    subst hf
    have hl := inv_latchRx h (f := f) hw
    cases he
    case drop => exact hl
    case label => exact inv_out hl rfl
    case ping => exact inv_send hl rfl
    case config => exact ⟨hl.params, hl.memory, hl.identity, hl.sequencing, ⟨fun _ => hm, hl.emission.2⟩, hl.session, hl.frames⟩
    case boardnumRequest => exact inv_send hl rfl
    case boardnumChange => exact inv_boardnum (inv_send hl rfl) _
    case goBtldr => exact inv_enter (inv_send (inv_markSetupNotDone (s := (s.latchRx f).pulseDetach) (inv_out hl rfl)) rfl)
    case hook => exact inv_out hl rfl

/-- `CFG_EMIT_STEP`. -/
theorem inv_emit {s : State} (h : s.Inv) (ha : s.cfgEmitActive = true) : s.emitConfig.Inv := by
  have he := h.emission.2 ha
  simp only [State.emitConfig]
  split
  · rename_i hk
    have := inv_send h (f := descriptorFrame s.ident.hash (tableRow s.params s.cfgEmitIndex.toNat s.cfgEmitPos)) (by simp [CanFrame.wf,
        descriptorFrame, tableRow_length (wf_table h)])
    exact ⟨this.params, this.memory, this.identity, this.sequencing, ⟨this.emission.1, fun _ => ⟨he.1, he.2.1, hk⟩⟩, this.session,
        this.frames⟩
  · have := inv_send h (f := terminatorFrame s.ident.hash s.cfgEmitIndex (BitVec.ofNat 8
      (frameCountOf s.params s.cfgEmitIndex.toNat))) rfl
    exact ⟨this.params, this.memory, this.identity, this.sequencing, ⟨this.emission.1, fun h => by cases h⟩, this.session, this.frames⟩

/-- `CFG_DRAIN`. -/
theorem inv_drain {s : State} (h : s.Inv) (hm : s.mode = .application) : s.drainConfig.Inv := by
  simp only [State.drainConfig]
  split
  · rename_i hk
    exact ⟨h.params, h.memory, h.identity, h.sequencing, ⟨fun h => (by cases h), fun _ => ⟨hm, hk, Nat.zero_le _⟩⟩, h.session, h.frames⟩
  · exact ⟨h.params, h.memory, h.identity, h.sequencing, ⟨fun h => (by cases h), h.emission.2⟩, h.session, h.frames⟩

/-- A session where the receiver asks for a commit: what `PAGE_COMMIT` needs and keeps. Its page is legal unless it is full. -/
structure State.Committable (s : State) : Prop where
  params : s.params.wf = true
  memory : s.mem.wf = true
  identity : s.identityCurrent
  sequencing : s.sequencingLegal
  emission : s.emissionLegal
  frames : s.framesLegal
  mode : s.mode = .bootloader
  notWaiting : s.waiting = false
  chunk : s.chunkLegal
  parser : s.phaseLegal
  pageIndex : s.session.pageIndex ≤ s.params.numPages
  page : s.session.writeCursor < s.params.pageSize → s.pageLegal

/-- The invariant is more. -/
theorem inv_committable {s : State} (h : s.Inv) (hm : s.mode = .bootloader) (hw : s.waiting = false) : s.Committable :=
  have ⟨hc, hp, hi, hg⟩ := h.session hm
  ⟨h.params, h.memory, h.identity, h.sequencing, h.emission, h.frames, hm, hw, hc, hp, hi, fun _ => hg⟩

/-- `PAGE_RANGE_STOP` where the receiver asks for a commit (R186). -/
theorem inv_stop {s : State} (h : s.Committable) (hp : 1 ≤ s.params.pageSize) : s.stopAtPageRange.Inv := by
  have hw : s.waiting ≠ true := by simp [h.notWaiting]
  refine ⟨h.params, h.memory, h.identity, ⟨h.sequencing.1, ?_, fun h' => absurd h' hw⟩, h.emission, fun _ => ?_, h.frames⟩
  · show Phase.halted = .idle ↔ s.mode = .application; simp [h.mode]
  · refine ⟨by simpa [State.chunkLegal] using h.chunk, ⟨?_, ?_⟩, by simpa using h.pageIndex, ?_⟩
    · exact ⟨fun h' => (by cases h'), fun h' => by rcases h' with h' | h' <;> cases h'⟩
    · rintro (h' | h')
      · cases h'
      · exact absurd h' hw
    · by_cases hf : s.session.writeCursor < s.params.pageSize
      · simpa [State.pageLegal, stopAtPageRange_keeps_page hf] using h.page hf
      · have hs := stopAtPageRange_empties_page (Nat.not_lt.mp hf)
        exact emptyPage_legal hp (congrArg TransferSession.pageBuffer hs) (congrArg TransferSession.writeCursor hs)

/-- `PAGE_COMMIT` where the receiver asks for it, whatever the page holds (R181). -/
theorem inv_commit {s : State} (h : s.Committable) : s.commitPage.Inv := by
  have hp : 1 ≤ s.params.pageSize := by
    have := h.params; simp only [Params.wf, Bool.and_eq_true, decide_eq_true_eq] at this; tauto
  simp only [State.commitPage]
  split
  · exact inv_stop h hp
  · rename_i hi
    refine ⟨h.params, memory_wf_writeList h.memory _ _ _, ⟨?_, h.identity.2⟩, h.sequencing, h.emission, fun _ => ?_, h.frames⟩
    · show s.ident.address = _
      rw [h.identity.1]
      simp only [State.persistedAddress, writeFlash_params, writeFlash_mem, readNv_writeList_flash]
    · exact ⟨h.chunk, h.parser, Nat.lt_of_not_le hi, emptyPage_legal hp rfl rfl⟩

/-- `BL_PULL`. -/
theorem inv_pull {s : State} (h : s.Inv) (hm : s.mode = .bootloader) (hp : s.phase = .streaming) (hw : s.waiting = false) (hc :
    s.chunkExhausted = false) : s.pullByte.Inv := by
  obtain ⟨⟨c1, c2, c3, c4⟩, hph, hi, g1, g2, g3⟩ := h.session hm
  have hcl : (s.session.chunkCursor : Int) ≤ s.session.chunkLimit := by
    simp only [State.chunkExhausted, decide_eq_false_iff_not] at hc; omega
  generalize hb : chunkByte s.session.localChunk ((s.session.chunkCursor : Int) - (s.params.chunkCursorStart.val : Int)) = b
  let u : State := { s with session := { s.session with
    chunkCursor := s.session.chunkCursor + 1
    pageBuffer := s.session.pageBuffer.set s.session.writeCursor b
    writeCursor := s.session.writeCursor + 1 } }
  have hchunk : u.chunkLegal := by
    refine ⟨c1, ?_, ?_, c4⟩
    · show _ ≤ s.session.chunkCursor + 1; exact Nat.le_succ_of_le c2
    · show ((s.session.chunkCursor + 1 : Nat) : Int) ≤ s.session.chunkLimit + 1; push_cast; omega
  have hparser : u.phaseLegal := by
    refine ⟨hph.1, ?_⟩
    rintro (h' | h')
    · cases hp.symm.trans h'
    · cases hw.symm.trans h'
  simp only [State.pullByte, hb]
  split
  · rename_i hfull
    exact inv_commit (s := u) ⟨h.params, h.memory, h.identity, h.sequencing, h.emission, h.frames, hm, hw, hchunk, hparser, hi,
      fun hlt => absurd hfull (Nat.ne_of_lt hlt)⟩
  · rename_i hfull
    have hfull' : s.session.writeCursor + 1 ≠ s.params.pageSize := hfull
    refine ⟨h.params, h.memory, h.identity, h.sequencing, h.emission, fun _ => ⟨hchunk, hparser, hi, ?_, ?_, ?_⟩, h.frames⟩
    · show (s.session.pageBuffer.set _ _).length = _; rw [List.length_set]; exact g1
    · show s.session.writeCursor + 1 < s.params.pageSize; omega
    · intro i h1 h2
      show (s.session.pageBuffer.set _ _)[i]? = _
      have h1' : s.session.writeCursor + 1 ≤ i := h1
      rw [List.getElem?_set_ne (by omega)]
      exact g3 i (by omega) h2

/-- `BL_POLL`. -/
theorem inv_poll {s : State} (h : s.Inv) (w : WireFrame) (hm : s.mode = .bootloader) (hp : s.phase = .streaming) (hw : w.wf = true) :
    (s.pollFrame w).Inv := by
  obtain ⟨⟨c1, c2, c3, c4⟩, hph, hi, hpg⟩ := h.session hm
  rcases pollFrame_cases s w with h' | ⟨-, h'⟩ | ⟨hh, r, hw', h'⟩ | ⟨hh, r, hw', h'⟩ <;> rw [h']
  · exact h
  · exact inv_latchRx h hw
  · subst hw'
    have hl : r.length ≤ 7 := by simp [WireFrame.wf] at hw; omega
    have h2 := inv_latchRx h (f := ⟨cmdBtldrAnswer, false, hh, subMoreData :: r⟩) hw
    have hcs : s.params.chunkCursorStart.val ≤ 1 := Nat.le_of_lt_succ s.params.chunkCursorStart.isLt
    refine ⟨h.params, h.memory, h.identity, ⟨h.sequencing.1, h.sequencing.2.1, fun h' => by cases h'⟩, h.emission, ?_, h2.frames⟩
    intro _
    refine ⟨⟨?_, ?_, ?_, ?_⟩, ⟨hph.1, ?_⟩, hi, hpg⟩
    · show (overlay _ _).length = 7; rw [overlay_length]; exact c1
    · exact Nat.le_refl _
    · show (s.params.chunkCursorStart.val : Int) ≤ max _ ((s.params.chunkCursorStart.val : Int) - 1) + 1; omega
    · show max (((subMoreData :: r).length : Int) - 2) ((s.params.chunkCursorStart.val : Int) - 1) ≤ 6
      simp only [List.length_cons]; push_cast; omega
    · rintro (h' | h')
      · have : s.phase = .awaitingStart := h'
        rw [hp] at this; cases this
      · cases h'
  · subst hw'
    have h2 := inv_latchRx h (f := ⟨cmdBtldrAnswer, false, hh, subEndData :: r⟩) hw
    refine ⟨h.params, h.memory, h.identity, ⟨h.sequencing.1, ?_, fun h' => by cases h'⟩, h.emission, ?_, h2.frames⟩
    · show Phase.finished = .idle ↔ s.mode = .application; simp [hm]
    · intro _
      refine ⟨⟨c1, c2, c3, c4⟩, ⟨⟨fun _ => .inl rfl, fun _ => rfl⟩, ?_⟩, hi, hpg⟩
      · rintro (h' | h') <;> cases h'

/-- `BL_ANNOUNCE`. -/
theorem inv_announce {s : State} (h : s.Inv) (hm : s.mode = .bootloader) (hp : s.phase = .awaitingStart) : s.announce.Inv := by
  have h2 := inv_send h (f := receiverFrame s.ident.hash subStartData) rfl
  obtain ⟨hc, hph, hi, hpg⟩ := h.session hm
  refine ⟨h.params, h.memory, h.identity, ⟨h.sequencing.1, ?_, ?_⟩, h.emission, ?_, h2.frames⟩
  · show Phase.streaming = .idle ↔ s.mode = .application; simp [hm]
  · intro _; rfl
  · intro _
    refine ⟨hc, ⟨?_, fun _ => hph.2 (.inl hp)⟩, hi, hpg⟩
    have hn : s.session.parserState ≠ .finished := fun h' => by rcases hph.1.mp h' with h' | h' <;> cases hp.symm.trans h'
    exact ⟨fun h' => absurd h' hn, fun h' => by rcases h' with h' | h' <;> cases h'⟩

/-- `BL_REQUEST`. -/
theorem inv_request {s : State} (h : s.Inv) (hm : s.mode = .bootloader) (hp : s.phase = .streaming) (hx : s.chunkExhausted = true) :
    s.requestChunk.Inv := by
  have h2 := inv_send h (f := receiverFrame s.ident.hash subMoreData) rfl
  obtain ⟨hc, hph, hi, hpg⟩ := h.session hm
  refine ⟨h.params, h.memory, h.identity, ⟨h.sequencing.1, h.sequencing.2.1, fun _ => hp⟩, h.emission, ?_, h2.frames⟩
  intro _
  exact ⟨hc, ⟨hph.1, fun _ => hx⟩, hi, hpg⟩

/-- `BL_TIMEOUT`. -/
theorem inv_abandon {s : State} (h : s.Inv) (hm : s.mode = .bootloader) : s.abandonTransfer.Inv := by
  obtain ⟨hc, hph, hi, hpg⟩ := h.session hm
  refine ⟨h.params, h.memory, h.identity, ⟨h.sequencing.1, ?_, fun h' => by cases h'⟩, h.emission, ?_, h.frames⟩
  · show Phase.handoffToApplication = .idle ↔ s.mode = .application; simp [hm]
  · intro _
    refine ⟨hc, ⟨⟨fun _ => .inr rfl, fun _ => rfl⟩, ?_⟩, hi, hpg⟩
    rintro (h' | h') <;> cases h'

/-- `BL_FINISH`. -/
theorem inv_finish {s : State} (h : s.Inv) (hm : s.mode = .bootloader) (hp : s.phase = .finished) : s.finishTransfer.Inv := by
  have hw : s.waiting = false := by
    by_contra h'; simp only [Bool.not_eq_false] at h'
    have := h.sequencing.2.2 h'; rw [hp] at this; cases this
  have hc := inv_commit (inv_committable h hm hw)
  have hmc : s.commitPage.mode = .bootloader := by rw [commitPage_mode, hm]
  have hwc : s.commitPage.waiting = false := by rw [← hw]; simp only [State.commitPage]; split <;> rfl
  simp only [State.finishTransfer]
  split
  · exact hc
  · rename_i hne
    obtain ⟨a, b, c, d⟩ := hc.session hmc
    have hf : s.commitPage.session.parserState = .finished := by
      have := ((h.session hm).2.1.1).mpr (.inl hp)
      revert hne
      simp only [State.commitPage]
      split
      · exact fun hne => absurd rfl hne
      · exact fun _ => this
    refine ⟨hc.params, hc.memory, hc.identity, ⟨hc.sequencing.1, ?_, ?_⟩, hc.emission, ?_, hc.frames⟩
    · show Phase.handoffToApplication = .idle ↔ s.commitPage.mode = .application; simp [hmc]
    · intro h'; have : s.commitPage.waiting = true := h'; simp [hwc] at this
    · intro _
      refine ⟨a, ⟨⟨fun _ => .inr rfl, fun _ => hf⟩, ?_⟩, c, d⟩
      · rintro (h' | h')
        · cases h'
        · have : s.commitPage.waiting = true := h'; simp [hwc] at this

/-- `AG_SERVE`. -/
theorem inv_serve {s : State} (h : s.Inv) : s.serveRequest.Inv := by
  have ht : s.agentTakes.Inv := inv_agent h (fun w hw => List.mem_of_mem_drop hw)
  simp only [State.serveRequest]
  split
  · have hp := h.params
    simp only [Params.wf, Bool.and_eq_true, decide_eq_true_eq] at hp
    have := inv_agentSend ht (f := dataFrameOf s.agentTakes.params s.agentTakes.agent.hash s.agentTakes.nextChunk) ?_
    · exact inv_agent this (fun w hw => hw)
    · have hl : s.agentTakes.nextChunk.length ≤ s.params.agentChunk := by
        simp only [State.nextChunk, List.length_take]; exact Nat.min_le_left _ _
      have hcs : s.params.chunkCursorStart = 1 → s.params.chunkCursorStart.val = 1 := fun h => by rw [h]; rfl
      simp only [CanFrame.wf, dataFrameOf, dataReplyFrame, dataFrameRest]
      split
      · rename_i h1
        have := hcs h1
        simp; omega
      · simp; omega
  · have := inv_agentSend ht (f := endReplyFrame s.agentTakes.agent.hash []) rfl
    exact inv_agent this (fun w hw => hw)

end Sys2Proof.Machine
end

