-- ==== Sys2Proof/Laws/PerInstr.lean ====
section
/-! SUPPORT. Statements made for every instruction, one lemma per constructor. -/

namespace Sys2Proof.Laws.EncodingIsFrame

open Sys2Proof

/-- The encoding of a well-formed instruction is a CAN frame: at most eight payload bytes (R13, R60); a row without a bit pattern has
none. -/
def Statement (i : Instr) : Prop := i.wf = true → ∀ w, encode i = some w → w.wf = true

/-- A frame row: its wire frame is as long as its logical frame. -/
theorem of_frame {f : CanFrame} (h : f.payload.length ≤ 8) : ∀ w, some (encodeFrame f) = some w → w.wf = true := by
  intro w hw
  cases hw
  exact decide_eq_true h

theorem rxStandardFrame (id : WireId) (payload : List Byte) : Statement (.rxStandardFrame id payload) := by
  intro h w hw
  cases hw
  exact h

theorem rxResponseDrop (command : Command) (hash : Hash) (payload : List Byte) : Statement (.rxResponseDrop command hash payload) :=
  fun h => of_frame (of_decide_eq_true h)

theorem ping (hash : Hash) (payload : List Byte) : Statement (.ping hash payload) := fun h => of_frame (of_decide_eq_true h)

theorem configStatus (hash : Hash) (payload : List Byte) : Statement (.configStatus hash payload) :=
  fun h => of_frame (of_decide_eq_true h)

theorem forAppBoardnumRequest (hash : Hash) (rest : List Byte) : Statement (.forAppBoardnumRequest hash rest) :=
  fun h => of_frame (Nat.succ_le_succ (of_decide_eq_true h))

theorem forAppBoardnumChange (hash : Hash) (rest : List Byte) : Statement (.forAppBoardnumChange hash rest) :=
  fun h => of_frame (Nat.succ_le_succ (of_decide_eq_true h))

theorem forAppGoBtldr (hash : Hash) (rest : List Byte) : Statement (.forAppGoBtldr hash rest) :=
  fun h => of_frame (Nat.succ_le_succ (of_decide_eq_true h))

theorem forAppNoHandler (hash : Hash) (payload : List Byte) : Statement (.forAppNoHandler hash payload) := by
  intro h
  simp only [Instr.wf, Bool.and_eq_true, decide_eq_true_eq] at h
  exact of_frame h.1.1.1

theorem forBtldr (hash : Hash) (payload : List Byte) : Statement (.forBtldr hash payload) := fun h => of_frame (of_decide_eq_true h)

theorem hook (command : Command) (hash : Hash) (payload : List Byte) : Statement (.hook command hash payload) := by
  intro h
  simp only [Instr.wf, Bool.and_eq_true, decide_eq_true_eq] at h
  exact of_frame h.1.1.1.1

theorem btldrAnswerData (hash : Hash) (rest : List Byte) : Statement (.btldrAnswerData hash rest) :=
  fun h => of_frame (Nat.succ_le_succ (of_decide_eq_true h))

theorem btldrAnswerEnd (hash : Hash) (rest : List Byte) : Statement (.btldrAnswerEnd hash rest) :=
  fun h => of_frame (Nat.succ_le_succ (of_decide_eq_true h))

theorem rxBlDiscard (frame : WireFrame) : Statement (.rxBlDiscard frame) := by
  intro h w hw
  cases hw
  simp only [Instr.wf, Bool.and_eq_true] at h
  exact h.1

theorem pingReply (hash : Hash) (uid : UidBytes) (major minor : Byte) (deviceType : BitVec 16) : Statement (.pingReply hash uid major minor deviceType) :=
  fun _ => of_frame (by simp [pingReplyFrame, UidBytes.toList])

theorem configStatusDescriptor (hash : Hash) (row : List Byte) : Statement (.configStatusDescriptor hash row) :=
  fun h => of_frame (Nat.le_of_eq (of_decide_eq_true h))

theorem configStatusTerminator (hash : Hash) (index count : Byte) : Statement (.configStatusTerminator hash index count) :=
  fun _ => of_frame (by simp [terminatorFrame])

theorem appAnswerBoardnumAnswer (hash : Hash) (address : Address) : Statement (.appAnswerBoardnumAnswer hash address) :=
  fun _ => of_frame (by simp [appAnswerFrame, Address.toList])

theorem appAnswerBoardnumChange (hash : Hash) (address : Address) : Statement (.appAnswerBoardnumChange hash address) :=
  fun _ => of_frame (by simp [appAnswerFrame, Address.toList])

theorem appAnswerGoBtldr (hash : Hash) (address : Address) : Statement (.appAnswerGoBtldr hash address) :=
  fun _ => of_frame (by simp [appAnswerFrame, Address.toList])

theorem btldrAnswerStartData (hash : Hash) : Statement (.btldrAnswerStartData hash) := fun _ => of_frame (by simp [receiverFrame])

theorem btldrAnswerMoreData (hash : Hash) : Statement (.btldrAnswerMoreData hash) := fun _ => of_frame (by simp [receiverFrame])

theorem agentForAppRequest (hash : Hash) (request : AppRequest) : Statement (.agentForAppRequest hash request) :=
  fun _ => of_frame (by cases request <;> simp [forAppRequestFrame, AppRequest.payload, Address.toList])

theorem agentDataFrame (hash : Hash) (rest : List Byte) : Statement (.agentDataFrame hash rest) :=
  fun h => of_frame (Nat.succ_le_succ (of_decide_eq_true h))

theorem agentEndFrame (reply : EndReply) : Statement (.agentEndFrame reply) :=
  fun h => of_frame (Nat.succ_le_succ (of_decide_eq_true h))

theorem encode (frame : CanFrame) : Statement (.encode frame) := fun _ _ h => nomatch h

theorem decode (id : WireId) (payload : List Byte) : Statement (.decode id payload) := fun _ _ h => nomatch h

theorem genUid (baseUid : Uid) (address : Address) : Statement (.genUid baseUid address) := fun _ _ h => nomatch h

theorem serializeUid (uid : Uid) : Statement (.serializeUid uid) := fun _ _ h => nomatch h

theorem genHash (uid : Uid) : Statement (.genHash uid) := fun _ _ h => nomatch h

theorem identLoad (baseUid : Uid) : Statement (.identLoad baseUid) := fun _ _ h => nomatch h

theorem reset : Statement .reset := fun _ _ h => nomatch h

theorem rxDispatch : Statement .rxDispatch := fun _ _ h => nomatch h

theorem cfgDrain : Statement .cfgDrain := fun _ _ h => nomatch h

theorem cfgEmitStep : Statement .cfgEmitStep := fun _ _ h => nomatch h

theorem blEnter : Statement .blEnter := fun _ _ h => nomatch h

theorem blAnnounce : Statement .blAnnounce := fun _ _ h => nomatch h

theorem blRequest : Statement .blRequest := fun _ _ h => nomatch h

theorem blPoll : Statement .blPoll := fun _ _ h => nomatch h

theorem loadChunk : Statement .loadChunk := fun _ _ h => nomatch h

theorem endOfData : Statement .endOfData := fun _ _ h => nomatch h

theorem blPull : Statement .blPull := fun _ _ h => nomatch h

theorem blTimeout : Statement .blTimeout := fun _ _ h => nomatch h

theorem blFinish : Statement .blFinish := fun _ _ h => nomatch h

theorem blHandoff : Statement .blHandoff := fun _ _ h => nomatch h

theorem pageCommit : Statement .pageCommit := fun _ _ h => nomatch h

theorem pageRangeStop : Statement .pageRangeStop := fun _ _ h => nomatch h

theorem agStart : Statement .agStart := fun _ _ h => nomatch h

theorem agServe : Statement .agServe := fun _ _ h => nomatch h

theorem dataFrame (data : List Byte) : Statement (.dataFrame data) := fun _ _ h => nomatch h

theorem agBuildRequest (request : AppRequest) : Statement (.agBuildRequest request) := fun _ _ h => nomatch h

theorem agInterpret (frame : CanFrame) (board : Address) : Statement (.agInterpret frame board) := fun _ _ h => nomatch h

end Sys2Proof.Laws.EncodingIsFrame
end

