-- ==== Sys2Proof/Tests/Slice0.lean ====
section
/-! SUPPORT. Tests: what WellFormed refuses, the decoding of words written out from spec/opcode_table.json and 30_encoding.md, one-step
tests on the vectors of 95_test_vectors.md (cited as V<n>), and a witness for the hypotheses of each obligation that has any. -/

namespace Sys2Proof.Tests

open Sys2Proof Sys2Proof.Machine

/-! ## Helpers -/

/-- What one looks at in the next state, if there is one. -/
def seen {α : Type} (o : Host.Outcome State Fault Refusal) (look : State → α) : Option α :=
  match o with
  | .next t => some (look t)
  | .fault _ => none
  | .refused _ => none

/-- The node after reset with one frame in its transceiver. -/
def received (w : WireFrame) : State := { State.reset with rxQueue := [w] }

/-- A bootloader of the example parameters in a given phase. -/
def boot (phase : Phase) : State :=
  { State.reset with
    mode := .bootloader, ivtSelect := .boot, phase := phase
    session := { State.reset.session with parserState := if phase = .finished ∨ phase = .handoffToApplication then .finished else .streaming } }

/-- A receiver that waits, with one frame in its transceiver. -/
def waitingFor (w : WireFrame) : State := { boot .streaming with waiting := true, rxQueue := [w] }

/-- An agent that has received a frame, in a given phase, with the image of V111. -/
def agentWith (phase : AgentPhase) (pos : Nat) (w : WireFrame) : State :=
  { State.reset with
    agent := { State.reset.agent with image := [1, 2, 3, 4, 5, 6, 7, 8, 9, 10], pos := pos, phase := phase, inbox := [w] } }

/-- Nine payload bytes, one too many. -/
def nine : List Byte := [0, 0, 0, 0, 0, 0, 0, 0, 0]

/-! ## WellFormed refuses -/

theorem test_wf_rxStandardFrame_too_long : (Instr.rxStandardFrame 0 nine).wf = false := by decide
theorem test_wf_rxResponseDrop_too_long : (Instr.rxResponseDrop 0 0 nine).wf = false := by decide
theorem test_wf_ping_too_long : (Instr.ping 0 nine).wf = false := by decide
theorem test_wf_configStatus_too_long : (Instr.configStatus 0 nine).wf = false := by decide
theorem test_wf_boardnumRequest_too_long : (Instr.forAppBoardnumRequest 0 (nine.drop 1)).wf = false := by decide
theorem test_wf_boardnumChange_too_long : (Instr.forAppBoardnumChange 0 (nine.drop 1)).wf = false := by decide
theorem test_wf_goBtldr_too_long : (Instr.forAppGoBtldr 0 (nine.drop 1)).wf = false := by decide
theorem test_wf_noHandler_too_long : (Instr.forAppNoHandler 0 (7 :: nine)).wf = false := by decide
theorem test_wf_noHandler_request : (Instr.forAppNoHandler 0 [0]).wf = false := by decide
theorem test_wf_noHandler_change : (Instr.forAppNoHandler 0 [2]).wf = false := by decide
theorem test_wf_noHandler_goBtldr : (Instr.forAppNoHandler 0 [3]).wf = false := by decide
theorem test_wf_forBtldr_too_long : (Instr.forBtldr 0 nine).wf = false := by decide
theorem test_wf_hook_too_long : (Instr.hook 0 0 nine).wf = false := by decide
theorem test_wf_hook_ping : (Instr.hook 0x018 0 []).wf = false := by decide
theorem test_wf_hook_configStatus : (Instr.hook 0x01D 0 []).wf = false := by decide
theorem test_wf_hook_forApp : (Instr.hook 0x052 0 []).wf = false := by decide
theorem test_wf_hook_forBtldr : (Instr.hook 0x050 0 []).wf = false := by decide
theorem test_wf_data_too_long : (Instr.btldrAnswerData 0 (nine.drop 1)).wf = false := by decide
theorem test_wf_end_too_long : (Instr.btldrAnswerEnd 0 (nine.drop 1)).wf = false := by decide
theorem test_wf_discard_too_long : (Instr.rxBlDiscard ⟨0, true, nine⟩).wf = false := by decide
theorem test_wf_discard_matching_data : (Instr.rxBlDiscard ⟨0x00A20000, true, [5]⟩).wf = false := by decide
theorem test_wf_discard_matching_end : (Instr.rxBlDiscard ⟨0x00A2FFFF, true, [6, 1]⟩).wf = false := by decide
theorem test_wf_descriptor_not_eight : (Instr.configStatusDescriptor 0 (nine.drop 2)).wf = false := by decide
theorem test_wf_agentData_too_long : (Instr.agentDataFrame 0 (nine.drop 1)).wf = false := by decide
theorem test_wf_agentEnd_too_long : (Instr.agentEndFrame ⟨0, nine.drop 1⟩).wf = false := by decide
theorem test_wf_encode_too_long : (Instr.encode ⟨0, false, 0, nine⟩).wf = false := by decide
theorem test_wf_decode_too_long : (Instr.decode 0 nine).wf = false := by decide
theorem test_wf_dataFrame_empty : (Instr.dataFrame []).wf = false := by decide
theorem test_wf_dataFrame_too_long : (Instr.dataFrame (nine.drop 1)).wf = false := by decide
theorem test_wf_interpret_too_long : (Instr.agInterpret ⟨0, false, 0, nine⟩ ⟨0x30, 0x30⟩).wf = false := by decide

theorem test_params_examples : Params.examples.wf = true := by decide
theorem test_params_no_page : { Params.examples with pageSize := 0 }.wf = false := by decide
theorem test_params_no_pages : { Params.examples with numPages := 0 }.wf = false := by decide
theorem test_params_same_address_bytes : { Params.examples with nvAddrLoOffset := 0 }.wf = false := by decide
theorem test_params_flag_on_hi : { Params.examples with nvSetupFlagOffset := 0 }.wf = false := by decide
theorem test_params_flag_on_lo : { Params.examples with nvSetupFlagOffset := 1 }.wf = false := by decide
theorem test_params_base_inside_page : { Params.examples with flashAppBase := 12 }.wf = false := by decide
theorem test_params_table_too_long : { Params.examples with cfgTable := List.replicate 256 [] }.wf = false :=
  have long (t : List (List (List Byte))) (h : t.length = 256) : { Params.examples with cfgTable := t }.wf = false := by
    simp [Params.wf, Params.tableWf, h]
  long _ List.length_replicate
theorem test_params_too_many_frames : { Params.examples with cfgTable := [List.replicate 256 []] }.wf = false :=
  have long (t : List (List Byte)) (h : t.length = 256) : { Params.examples with cfgTable := [t] }.wf = false := by
    simp [Params.wf, Params.tableWf, h]
  long _ List.length_replicate
theorem test_params_short_row : { Params.examples with cfgTable := [[[1, 2]]] }.wf = false := by decide
theorem test_params_no_chunk : { Params.examples with agentChunk := 0 }.wf = false := by decide
theorem test_params_chunk_too_long : { Params.examples with agentChunk := 7 }.wf = false := by decide

/-! ## Decoding: identifiers written out from the opcode table (`command` 28:17, `R` 16, hash 15:0; R61), payloads from R66 to R77 -/

/-- PING, bit by bit: command `000000011000`, `R = 0`, hash `0100011100010000` (R61, R63). -/
theorem test_decode_ping : decode .router ⟨0b00000001100000100011100010000#29, true, []⟩ = .instr (.ping 0x4710 []) := by decide
/-- PING.REPLY, bit by bit: `R = 1`, hash `0100101100001001` (R67, V40). -/
theorem test_decode_pingReply : decode .transmit ⟨0b00000001100010100101100001001#29, true, [0x50, 0x09, 0x19, 0x00, 0x01, 0x02, 0x00, 0x53]⟩
    = .instr (.pingReply 0x4B09 ⟨0x50, 0x09, 0x19, 0x00⟩ 0x01 0x02 0x0053) := by decide
/-- CONFIG_STATUS, bit by bit: command `000000011101` (R63, V44). -/
theorem test_decode_configStatus : decode .router ⟨0b00000001110100100011100010000#29, true, [0x50, 0x09, 0x19, 0x00, 0x00]⟩
    = .instr (.configStatus 0x4710 [0x50, 0x09, 0x19, 0x00, 0x00]) := by decide
/-- FOR_APP.BOARDNUM_REQUEST, bit by bit: command `000001010010`, payload byte 0 is 0 (V48). -/
theorem test_decode_boardnumRequest : decode .router ⟨0b00000101001000100011100010000#29, true, [0x00, 0x30, 0x30]⟩
    = .instr (.forAppBoardnumRequest 0x4710 [0x30, 0x30]) := by decide
/-- APP_ANSWER, bit by bit: command `000001010011`, `R = 1` (V48). -/
theorem test_decode_boardnumAnswer : decode .transmit ⟨0b00000101001110100101100001001#29, true, [0x01, 0x30, 0x30]⟩
    = .instr (.appAnswerBoardnumAnswer 0x4B09 ⟨0x30, 0x30⟩) := by decide
/-- BTLDR_ANSWER.DATA, bit by bit: command `000001010001`, `R = 0`, payload byte 0 is 5 (V83). -/
theorem test_decode_data : decode .poll ⟨0b00000101000100100011100010000#29, true, [0x05, 0x01, 0x02, 0x03, 0x04, 0x05, 0x06, 0x00]⟩
    = .instr (.btldrAnswerData 0x4710 [0x01, 0x02, 0x03, 0x04, 0x05, 0x06, 0x00]) := by decide
/-- BTLDR_ANSWER.START_DATA, bit by bit: `R = 1`, payload byte 0 is 4 (V81). -/
theorem test_decode_startData : decode .transmit ⟨0b00000101000110100101100001001#29, true, [0x04]⟩
    = .instr (.btldrAnswerStartData 0x4B09) := by decide
/-- FOR_BTLDR, bit by bit: command `000001010000` (V63). -/
theorem test_decode_forBtldr : decode .router ⟨0b00000101000000100011100010000#29, true, [0x05]⟩ = .instr (.forBtldr 0x4710 [0x05]) := by
  decide
/-- HOOK on twelve bits, bit by bit: command `100000011000` is not PING (V15, V64). -/
theorem test_decode_hook : decode .router ⟨0b10000001100000100101100001001#29, true, []⟩ = .instr (.hook 0x818 0x4B09 []) := by decide
theorem test_decode_standardFrame : decode .router ⟨0x00304710, false, []⟩ = .instr (.rxStandardFrame 0x00304710 []) := by decide
theorem test_decode_response : decode .router ⟨0x00314B0E, true, [0x50]⟩ = .instr (.rxResponseDrop 0x018 0x4B0E [0x50]) := by decide
theorem test_decode_boardnumChange : decode .router ⟨0x00A44710, true, [0x02, 0x30, 0x30, 0x31, 0x32]⟩
    = .instr (.forAppBoardnumChange 0x4710 [0x30, 0x30, 0x31, 0x32]) := by decide
theorem test_decode_goBtldr : decode .router ⟨0x00A44710, true, [0x03, 0x30, 0x30]⟩ = .instr (.forAppGoBtldr 0x4710 [0x30, 0x30]) := by
  decide
theorem test_decode_noHandler : decode .router ⟨0x00A44710, true, [0x04, 0x30, 0x30]⟩
    = .instr (.forAppNoHandler 0x4710 [0x04, 0x30, 0x30]) := by decide
theorem test_decode_noHandler_empty : decode .router ⟨0x00A44710, true, []⟩ = .instr (.forAppNoHandler 0x4710 []) := by decide
theorem test_decode_end : decode .poll ⟨0x00A24710, true, [0x06, 0x01, 0x02, 0x03]⟩ = .instr (.btldrAnswerEnd 0x4710 [0x01, 0x02, 0x03]) := by
  decide
theorem test_decode_discard : decode .poll ⟨0x00A34B0E, true, [0x05]⟩ = .instr (.rxBlDiscard ⟨0x00A34B0E, true, [0x05]⟩) := by decide
theorem test_decode_descriptor : decode .transmit ⟨0x003B4B09, true, [0x00, 0x01, 0x00, 0x00, 0x00, 0x00, 0x00, 0x05]⟩
    = .instr (.configStatusDescriptor 0x4B09 [0x00, 0x01, 0x00, 0x00, 0x00, 0x00, 0x00, 0x05]) := by decide
theorem test_decode_terminator : decode .transmit ⟨0x003B4B09, true, [0x00, 0x02]⟩ = .instr (.configStatusTerminator 0x4B09 0 2) := by decide
theorem test_decode_changeAnswer : decode .transmit ⟨0x00A74B09, true, [0x02, 0x30, 0x30]⟩
    = .instr (.appAnswerBoardnumChange 0x4B09 ⟨0x30, 0x30⟩) := by decide
theorem test_decode_goBtldrAnswer : decode .transmit ⟨0x00A74B09, true, [0x03, 0x30, 0x30]⟩
    = .instr (.appAnswerGoBtldr 0x4B09 ⟨0x30, 0x30⟩) := by decide
theorem test_decode_moreData : decode .transmit ⟨0x00A34B09, true, [0x05]⟩ = .instr (.btldrAnswerMoreData 0x4B09) := by decide
theorem test_decode_agentRequest : decode .agentTransmit ⟨0x00A44710, true, [0x02, 0x30, 0x30, 0x31, 0x32]⟩
    = .instr (.agentForAppRequest 0x4710 (.boardnumChange ⟨0x30, 0x30⟩ ⟨0x31, 0x32⟩)) := by decide
theorem test_decode_agentData : decode .agentTransmit ⟨0x00A24710, true, [0x05, 0x07, 0x08, 0x00]⟩
    = .instr (.agentDataFrame 0x4710 [0x07, 0x08, 0x00]) := by decide
theorem test_decode_agentEnd : decode .agentTransmit ⟨0x00A24710, true, [0x06]⟩ = .instr (.agentEndFrame ⟨0x4710, []⟩) := by decide
/-- R73: a data frame of length 1, an end frame of length 8. -/
theorem test_decode_agent_lengths : decode .agentTransmit ⟨0x00A24710, true, [0x05]⟩ = .instr (.agentDataFrame 0x4710 [])
    ∧ decode .agentTransmit ⟨0x00A24710, true, [0x06, 1, 2, 3, 4, 5, 6, 7]⟩ = .instr (.agentEndFrame ⟨0x4710, [1, 2, 3, 4, 5, 6, 7]⟩) := by
  decide

/-- What is no instruction is rejected by name. -/
theorem test_decode_rejects :
    decode .router ⟨0, true, nine⟩ = .rejected .payloadTooLong
      ∧ decode .transmit ⟨0x00A74B09, true, [0x04, 0x30, 0x30]⟩ = .rejected .noTransmitRow
      ∧ decode .agentTransmit ⟨0x00A24710, true, [0x04]⟩ = .rejected .noAgentRow := by decide

/-- The rows without a bit pattern have no encoding. -/
theorem test_no_encoding (f : CanFrame) (id : WireId) (p d : List Byte) (u : Uid) (a : Address) (r : AppRequest) :
    [Instr.encode f, .decode id p, .genUid u a, .serializeUid u, .genHash u, .identLoad u, .reset, .rxDispatch, .cfgDrain, .cfgEmitStep,
      .blEnter, .blAnnounce, .blRequest, .blPoll, .loadChunk, .endOfData, .blPull, .blTimeout, .blFinish, .blHandoff, .pageCommit,
      .pageRangeStop, .agStart, .agServe, .dataFrame d, .agBuildRequest r, .agInterpret f a].map encode = List.replicate 27 none := rfl

/-! ## One step on the vectors -/

theorem test_standardFrame (look := fun t : State => (t.rx, t.out.trace)) :
    seen (exec (.rxStandardFrame 0x00304710 []) State.reset) look = some (look State.reset) := rfl
/-- V42. -/
theorem test_response_drop : seen (step (received ⟨0x00314B0E, true, [0x50, 0x09, 0x19, 0x07, 0x01, 0x02, 0x00, 0x53]⟩))
    (fun t => (t.out.trace, t.rxQueue, t.rx.hash)) = some ([], [], 0x4B0E) := by decide
/-- V40. -/
theorem test_ping : seen (step (received ⟨0x00304710, true, []⟩)) (·.out.trace)
    = some [⟨0x00314B09, true, [0x50, 0x09, 0x19, 0x00, 0x01, 0x02, 0x00, 0x53]⟩] := by decide
/-- V43: a standard frame is not a PING. -/
theorem test_standard_ping : seen (step (received ⟨0x00304710, false, []⟩)) (fun t => (t.out.trace, t.rxQueue)) = some ([], []) := by decide
/-- V47. -/
theorem test_configStatus : seen (step (received ⟨0x003A4710, true, [0x50, 0x09, 0x19, 0x00, 0x07, 0xAA, 0xBB, 0xCC]⟩))
    (fun t => (t.cfgIndex, t.cfgPending, t.out.trace)) = some (7, true, []) := by decide
/-- V45. -/
theorem test_configStatus_mismatch : seen (step (received ⟨0x003A4710, true, [0x50, 0x09, 0x19, 0x01, 0x00]⟩))
    (fun t => (t.cfgPending, t.out.label)) = some (false, some .identityMismatch) := by decide
/-- V48. -/
theorem test_boardnumRequest : seen (step (received ⟨0x00A44710, true, [0x00, 0x30, 0x30]⟩)) (·.out.trace)
    = some [⟨0x00A74B09, true, [0x01, 0x30, 0x30]⟩] := by decide
/-- V49. -/
theorem test_boardnumRequest_other : seen (step (received ⟨0x00A44710, true, [0x00, 0x30, 0x31]⟩))
    (fun t => (t.out.trace, t.out.label)) = some ([], some .addressMismatch) := by decide
/-- V52. -/
theorem test_boardnumChange : seen (step (received ⟨0x00A44710, true, [0x02, 0x30, 0x30, 0x31, 0x32]⟩))
    (fun t => (t.out.trace, t.mem.nv, t.ident))
      = some ([⟨0x00A74B09, true, [0x02, 0x30, 0x30]⟩], [(0, 0x31), (1, 0x32)],
          ⟨⟨0x31, 0x32⟩, 0x50091907, ⟨0x50, 0x09, 0x19, 0x07⟩, 0x4B0E⟩) := by decide
/-- V54. -/
theorem test_boardnumChange_not_digits : seen (step (received ⟨0x00A44710, true, [0x02, 0x30, 0x30, 0x41, 0x32]⟩))
    (fun t => (t.out.trace, t.mem, t.ident.hash)) = some ([], ⟨[], []⟩, 0x4B09) := by decide
/-- V56. -/
theorem test_goBtldr : seen (step (received ⟨0x00A44710, true, [0x03, 0x30, 0x30]⟩))
    (fun t => (t.out.trace, t.out.detachPeripherals, t.mode, t.phase))
      = some ([⟨0x00A74B09, true, [0x03, 0x30, 0x30]⟩], true, .bootloader, .awaitingStart) := by decide
/-- V57. -/
theorem test_goBtldr_setup_flag : seen (step { received ⟨0x00A44710, true, [0x03, 0x30, 0x30]⟩ with
      params := { Params.examples with hasSetupFlag := true } }) (fun t => (t.mem.nv, t.phase)) = some ([(2, 0x00)], .awaitingStart) := by
  decide
/-- V58. -/
theorem test_noHandler : seen (step (received ⟨0x00A44710, true, [0x04, 0x30, 0x30]⟩)) (fun t => (t.out.trace, t.out.label, t.mode))
    = some ([], none, .application) := by decide
/-- V51. -/
theorem test_forApp_empty : seen (step (received ⟨0x00A44710, true, []⟩)) (·.out.label) = some (some .addressMismatch) := by decide
/-- V63. -/
theorem test_forBtldr : seen (step (received ⟨0x00A04710, true, [0x05]⟩)) (fun t => (t.out.trace, t.out.hookValid))
    = some ([], some ⟨0x050, false, 0x4710, [0x05]⟩) := by decide
/-- V64. -/
theorem test_hook : seen (step (received ⟨0x10304B09, true, []⟩)) (fun t => (t.out.trace, t.out.hookValid))
    = some ([], some ⟨0x818, false, 0x4B09, []⟩) := by decide
/-- V83. -/
theorem test_data : seen (step (waitingFor ⟨0x00A24710, true, [0x05, 0x01, 0x02, 0x03, 0x04, 0x05, 0x06, 0x00]⟩))
    (fun t => (t.session.localChunk, t.session.chunkLimit, t.session.chunkCursor, t.waiting))
      = some ([0x01, 0x02, 0x03, 0x04, 0x05, 0x06, 0x00], 6, 1, false) := by decide
/-- V89. -/
theorem test_data_empty : seen (step { waitingFor ⟨0x00A24710, true, [0x05]⟩ with
      params := { Params.examples with chunkCursorStart := 0 } }) (fun t => (t.session.chunkLimit, t.session.chunkCursor, t.waiting))
    = some (-1, 0, false) := by decide
/-- V91. -/
theorem test_end : seen (step (waitingFor ⟨0x00A24710, true, [0x06, 0x01, 0x02, 0x03]⟩))
    (fun t => (t.phase, t.session.parserState, t.waiting)) = some (.finished, .finished, false) := by decide
/-- V92. -/
theorem test_discard : seen (step (waitingFor ⟨0x00304710, true, []⟩)) (fun t => (t.waiting, t.out.trace, t.rxQueue))
    = some (true, [], []) := by decide
/-- V94. -/
theorem test_discard_response : seen (exec (.rxBlDiscard ⟨0x00A34B0E, true, [0x05]⟩) (waitingFor ⟨0, true, []⟩))
    (fun t => (t.waiting, t.phase)) = some (true, .streaming) := by decide

/-- R67. -/
theorem test_out_pingReply : seen (exec (.pingReply 0x4B09 ⟨0x50, 0x09, 0x19, 0x07⟩ 1 2 0x0053) State.reset) (·.out.trace)
    = some [⟨0x00314B09, true, [0x50, 0x09, 0x19, 0x07, 0x01, 0x02, 0x00, 0x53]⟩] := by decide
/-- V70. -/
theorem test_out_descriptor : seen (exec (.configStatusDescriptor 0x4B09 [0x41, 0x64, 0x64, 0x72, 0, 0, 0, 0]) State.reset) (·.out.trace)
    = some [⟨0x003B4B09, true, [0x41, 0x64, 0x64, 0x72, 0, 0, 0, 0]⟩] := by decide
/-- V70. -/
theorem test_out_terminator : seen (exec (.configStatusTerminator 0x4B09 0 2) State.reset) (·.out.trace)
    = some [⟨0x003B4B09, true, [0x00, 0x02]⟩] := by decide
/-- V48. -/
theorem test_out_boardnumAnswer : seen (exec (.appAnswerBoardnumAnswer 0x4B09 ⟨0x30, 0x31⟩) State.reset) (·.out.trace)
    = some [⟨0x00A74B09, true, [0x01, 0x30, 0x31]⟩] := by decide
/-- V52. -/
theorem test_out_boardnumChange : seen (exec (.appAnswerBoardnumChange 0x4B09 ⟨0x30, 0x31⟩) State.reset) (·.out.trace)
    = some [⟨0x00A74B09, true, [0x02, 0x30, 0x31]⟩] := by decide
/-- V56. -/
theorem test_out_goBtldr : seen (exec (.appAnswerGoBtldr 0x4B09 ⟨0x30, 0x31⟩) State.reset) (·.out.trace)
    = some [⟨0x00A74B09, true, [0x03, 0x30, 0x31]⟩] := by decide
/-- V81. -/
theorem test_out_startData : seen (exec (.btldrAnswerStartData 0x4B09) State.reset) (·.out.trace) = some [⟨0x00A34B09, true, [0x04]⟩] := by
  decide
/-- V82. -/
theorem test_out_moreData : seen (exec (.btldrAnswerMoreData 0x4B09) State.reset) (·.out.trace) = some [⟨0x00A34B09, true, [0x05]⟩] := by
  decide
/-- V117. -/
theorem test_agent_request : seen (exec (.agentForAppRequest 0x4710 (.boardnumChange ⟨0x30, 0x30⟩ ⟨0x31, 0x32⟩)) State.reset)
    (fun t => (t.rxQueue, t.agent.trace, t.out.trace)) = some ([⟨0x00A44710, true, [0x02, 0x30, 0x30, 0x31, 0x32]⟩],
      [⟨0x00A44710, true, [0x02, 0x30, 0x30, 0x31, 0x32]⟩], []) := by decide
/-- V112. -/
theorem test_agent_data : seen (exec (.agentDataFrame 0x4710 [0x07, 0x08, 0x09, 0x0A, 0x00]) State.reset) (·.rxQueue)
    = some [⟨0x00A24710, true, [0x05, 0x07, 0x08, 0x09, 0x0A, 0x00]⟩] := by decide
/-- V113. -/
theorem test_agent_end : seen (exec (.agentEndFrame ⟨0x4710, []⟩) State.reset) (·.rxQueue) = some [⟨0x00A24710, true, [0x06]⟩] := by decide

/-- V7. -/
theorem test_encode : seen (exec (.encode ⟨0xFFF, true, 0xFFFF, []⟩) State.reset) (·.out.returned)
    = some (.wire ⟨0x1FFFFFFF, true, []⟩) := by decide
/-- V8: the first code beyond the guaranteed range; bit 16 is cleared without the flag. -/
theorem test_encode_request : seen (exec (.encode ⟨0x080, false, 0x0300, [1]⟩) State.reset) (·.out.returned)
    = some (.wire ⟨0x01000300, true, [1]⟩) := by decide
/-- V16. -/
theorem test_decode_fields : seen (exec (.decode 0x00A34B09 [0x04]) State.reset) (·.out.returned)
    = some (.frame ⟨0x051, true, 0x4B09, [0x04]⟩) := by decide
/-- V14. -/
theorem test_decode_flag : seen (exec (.decode 0x0001FFFF []) State.reset) (·.out.returned)
    = some (.frame ⟨0x000, true, 0xFFFF, []⟩) := by decide
/-- V21: unequal digits. -/
theorem test_genUid : seen (exec (.genUid 0x50091900 ⟨0x31, 0x32⟩) State.reset) (·.out.returned) = some (.uid 0x50091907) := by decide
/-- V29: the sum wraps. -/
theorem test_genUid_wraps : seen (exec (.genUid 0xFFFFFFF0 ⟨0x39, 0x39⟩) State.reset) (·.out.returned) = some (.uid 0x00000014) := by
  decide
/-- V23. -/
theorem test_serializeUid : seen (exec (.serializeUid 0x50091924) State.reset) (·.out.returned)
    = some (.uidBytes ⟨0x50, 0x09, 0x19, 0x24⟩) := by decide
/-- V34. -/
theorem test_genHash : seen (exec (.genHash 0x12345678) State.reset) (·.out.returned) = some (.hash 0x474C) := by decide
/-- V31: bit 7 is cleared. -/
theorem test_genHash_bit7 : seen (exec (.genHash 0x000000FF) State.reset) (·.out.returned) = some (.hash 0x037F) := by decide
/-- V22, from persisted bytes. -/
theorem test_identLoad : seen (exec (.identLoad 0x50091900) { State.reset with mem := ⟨[(0, 0x32), (1, 0x31)], []⟩ }) (·.ident)
    = some ⟨⟨0x32, 0x31⟩, 0x50091905, ⟨0x50, 0x09, 0x19, 0x05⟩, 0x4B0C⟩ := by decide
/-- R230: the listed registers, from a receiver in mid-transfer; NV and FLASH stay. -/
theorem test_reset : seen (exec .reset { boot .halted with mem := ⟨[(0, 0x31)], [(8, 0x07)]⟩, out := { State.reset.out with
      trace := [⟨0, true, []⟩] } }) (fun t => (t.mode, t.phase, t.out.trace, t.ident.uid, t.mem))
    = some (.application, .idle, [], 0x50091901, ⟨[(0, 0x31)], [(8, 0x07)]⟩) := by decide
/-- R110: exactly one frame is taken, the oldest. -/
theorem test_rxDispatch : seen (exec .rxDispatch { State.reset with rxQueue := [⟨0x00304710, true, []⟩, ⟨0x00A04710, true, [0x05]⟩] })
    (fun t => (t.rxQueue, t.out.trace.length)) = some ([⟨0x00A04710, true, [0x05]⟩], 1) := by decide
/-- V70. -/
theorem test_cfgDrain : seen (exec .cfgDrain { State.reset with cfgPending := true })
    (fun t => (t.cfgPending, t.cfgEmitActive, t.cfgEmitIndex, t.cfgEmitPos)) = some (false, true, 0, 0) := by decide
/-- V71. -/
theorem test_cfgDrain_no_table : seen (exec .cfgDrain { State.reset with cfgPending := true, cfgIndex := 7 })
    (fun t => (t.cfgPending, t.cfgEmitActive)) = some (false, false) := by decide
/-- V70, its second frame. -/
theorem test_cfgEmitStep : seen (exec .cfgEmitStep { State.reset with cfgEmitActive := true, cfgEmitPos := 1 })
    (fun t => (t.out.trace, t.cfgEmitPos, t.cfgEmitActive)) = some ([⟨0x003B4B09, true, [0x41, 0x64, 0x64, 0x72, 0, 0, 0, 0]⟩], 2, true) := by
  decide
/-- V70, its terminator. -/
theorem test_cfgEmitStep_terminator : seen (exec .cfgEmitStep { State.reset with cfgEmitActive := true, cfgEmitPos := 2 })
    (fun t => (t.out.trace, t.cfgEmitActive)) = some ([⟨0x003B4B09, true, [0x00, 0x02]⟩], false) := by decide
/-- R150. -/
theorem test_blEnter : seen (exec .blEnter { State.reset with cfgPending := true, params := { Params.examples with baseUidBl := 0x47110001 } })
    (fun t => (t.mode, t.ivtSelect, t.phase, t.cfgPending, t.ident.hash)) = some (.bootloader, .boot, .awaitingStart, false, 0x4710) := by decide
/-- R150: the page buffer. -/
theorem test_blEnter_session : seen (exec .blEnter (boot .finished)) (fun t => (t.session.pageBuffer, t.session.pageIndex, t.session.writeCursor))
    = some ([0xFF, 0xFF, 0xFF, 0xFF, 0xFF, 0xFF, 0xFF, 0xFF], 0, 0) := by decide
/-- V81. -/
theorem test_blAnnounce : seen (step (boot .awaitingStart)) (fun t => (t.out.trace, t.phase))
    = some ([⟨0x00A34B09, true, [0x04]⟩], .streaming) := by decide
/-- V82. -/
theorem test_blRequest : seen (step (boot .streaming)) (fun t => (t.out.trace, t.waiting)) = some ([⟨0x00A34B09, true, [0x05]⟩], true) := by
  decide
/-- V84. -/
theorem test_blPoll : seen (exec .blPoll (waitingFor ⟨0x00A24710, true, [0x05, 0x07, 0x08, 0x09, 0x0A, 0x00]⟩))
    (fun t => (t.session.chunkLimit, t.session.chunkCursor, t.waiting, t.rxQueue)) = some (4, 1, false, []) := by decide
/-- V86. -/
theorem test_loadChunk : seen (exec .loadChunk { boot .streaming with rx := ⟨0x051, false, 0x4710, [0x05, 0xAA]⟩ })
    (fun t => (t.session.chunkLimit, t.session.chunkCursor, t.session.localChunk)) = some (0, 1, [0xAA, 0, 0, 0, 0, 0, 0]) := by decide
/-- V87: the clamp. -/
theorem test_loadChunk_clamp : seen (exec .loadChunk { boot .streaming with rx := ⟨0x051, false, 0x4710, [0x05]⟩ })
    (fun t => (t.session.chunkLimit, t.session.chunkCursor)) = some (0, 1) := by decide
/-- V90. -/
theorem test_endOfData : seen (exec .endOfData { boot .streaming with waiting := true })
    (fun t => (t.phase, t.session.parserState, t.waiting)) = some (.finished, .finished, false) := by decide
/-- V100: the byte that fills the page commits it. -/
theorem test_blPull_commits : seen (step { boot .streaming with session := { State.reset.session with
      pageBuffer := [1, 2, 3, 4, 5, 6, 7, 0xFF], writeCursor := 7, localChunk := [0, 8, 0, 0, 0, 0, 0], chunkCursor := 2, chunkLimit := 4 } })
    (fun t => (t.mem.flash, t.session.pageBuffer, t.session.writeCursor, t.session.pageIndex, t.session.chunkCursor))
      = some ([(0, 1), (1, 2), (2, 3), (3, 4), (4, 5), (5, 6), (6, 7), (7, 8)], List.replicate 8 0xFF, 0, 1, 3) := by decide
/-- P5, row 6, its first pull. -/
theorem test_blPull : seen (step { boot .streaming with session := { State.reset.session with
      localChunk := [1, 2, 3, 4, 5, 6, 0], chunkCursor := 1, chunkLimit := 6 } })
    (fun t => (t.session.pageBuffer, t.session.writeCursor, t.session.chunkCursor, t.mem.flash))
      = some ([1, 0xFF, 0xFF, 0xFF, 0xFF, 0xFF, 0xFF, 0xFF], 1, 2, []) := by decide
/-- V105; R22 for the parser state. -/
theorem test_blTimeout : seen (step { boot .streaming with
      waiting := true, params := { Params.examples with timeoutEn := true }, env := ⟨[], true, false⟩ })
    (fun t => (t.phase, t.waiting, t.out.label, t.mem, t.session.parserState))
      = some (.handoffToApplication, false, some .transferTimeout, ⟨[], []⟩, .finished) := by decide
/-- V99: without the feature the timer does nothing. -/
theorem test_no_timeout : seen (step { boot .streaming with waiting := true, env := ⟨[], true, false⟩ }) (fun t => (t.phase, t.waiting))
    = some (.streaming, true) := by decide
/-- V101. -/
theorem test_blFinish : seen (step { boot .finished with session := { State.reset.session with
      pageIndex := 1, writeCursor := 2, pageBuffer := [9, 10, 0xFF, 0xFF, 0xFF, 0xFF, 0xFF, 0xFF] } }) (fun t => (t.mem.flash, t.phase))
    = some ([(8, 9), (9, 10), (10, 0xFF), (11, 0xFF), (12, 0xFF), (13, 0xFF), (14, 0xFF), (15, 0xFF)], .handoffToApplication) := by decide
/-- R186 in a pull: nothing is written, and R163's "between steps `writeCursor < PAGE_SIZE` always" holds. -/
theorem test_blPull_beyond : seen (step { boot .streaming with session := { State.reset.session with
      pageIndex := 4, writeCursor := 7, chunkCursor := 1, chunkLimit := 6 } })
    (fun t => (t.phase, t.mem, t.session.writeCursor, t.session.parserState)) = some (.halted, ⟨[], []⟩, 0, .streaming) := by decide
/-- V103; R186 writes nothing, the partial page included. -/
theorem test_blFinish_beyond : seen (step { boot .finished with session := { State.reset.session with
      pageIndex := 4, writeCursor := 2, pageBuffer := [9, 10, 0xFF, 0xFF, 0xFF, 0xFF, 0xFF, 0xFF] } })
    (fun t => (t.mem.flash, t.phase, t.out.label, t.session.writeCursor, t.session.pageBuffer))
    = some ([], .halted, some .pageRangeStop, 2, [9, 10, 0xFF, 0xFF, 0xFF, 0xFF, 0xFF, 0xFF]) := by decide
/-- V104. -/
theorem test_blHandoff : seen (step (boot .handoffToApplication)) (fun t => (t.mode, t.ivtSelect, t.phase, t.out.appStart, t.ident.hash))
    = some (.application, .app, .idle, true, 0x4B09) := by decide
/-- V102: the whole buffer is written, whatever `writeCursor` is. -/
theorem test_pageCommit : seen (exec .pageCommit { boot .finished with params := { Params.examples with pageSize := 2 }, session :=
      { State.reset.session with pageIndex := 2, pageBuffer := [0xFF, 0xFF] } }) (fun t => (t.mem.flash, t.session.pageIndex))
    = some ([(4, 0xFF), (5, 0xFF)], 3) := by decide
/-- R186. -/
theorem test_pageRangeStop : seen (exec .pageRangeStop { boot .finished with session := { State.reset.session with pageIndex := 4 } })
    (fun t => (t.phase, t.mem.flash)) = some (.halted, []) := by decide
/-- R173: the model's one fault. -/
theorem test_halted : step (boot .halted) = .fault .halted := by rfl
/-- V110. -/
theorem test_agStart : seen (exec .agStart (agentWith .agIdle 3 ⟨0x00A34B09, true, [0x04]⟩)) (fun t => (t.agent.phase, t.agent.pos, t.rxQueue))
    = some (.agServing, 0, []) := by decide
/-- V112. -/
theorem test_agServe : seen (exec .agServe (agentWith .agServing 6 ⟨0x00A34B09, true, [0x05]⟩)) (fun t => (t.rxQueue, t.agent.pos))
    = some ([⟨0x00A24710, true, [0x05, 0x07, 0x08, 0x09, 0x0A, 0x00]⟩], 10) := by decide
/-- V113. -/
theorem test_agServe_end : seen (exec .agServe (agentWith .agServing 10 ⟨0x00A34B09, true, [0x05]⟩)) (fun t => (t.rxQueue, t.agent.phase))
    = some ([⟨0x00A24710, true, [0x06]⟩], .agDone) := by decide
/-- V115: a request to an idle agent is ignored. -/
theorem test_agent_ignores : seen (step { agentWith .agIdle 0 ⟨0x00A34B09, true, [0x05]⟩ with env := ⟨[.agent], false, false⟩ })
    (fun t => (t.agent.phase, t.rxQueue)) = some (.agIdle, []) := by decide
/-- V111, V116: with `CHUNK_CURSOR_START = 1` a trailing byte, without it none. -/
theorem test_dataFrame : seen (exec (.dataFrame [1, 2, 3, 4, 5, 6]) State.reset) (·.out.returned)
      = some (.frame ⟨0x051, false, 0x4710, [0x05, 1, 2, 3, 4, 5, 6, 0]⟩)
    ∧ seen (exec (.dataFrame [1, 2, 3, 4, 5, 6, 7]) { State.reset with params := { Params.examples with chunkCursorStart := 0 } })
      (·.out.returned) = some (.frame ⟨0x051, false, 0x4710, [0x05, 1, 2, 3, 4, 5, 6, 7]⟩) := by decide
/-- R194 gives no payload for seven bytes with the trailing byte; the header stands (log 30). -/
theorem test_dataFrame_too_long : ∃ p, seen (exec (.dataFrame [1, 2, 3, 4, 5, 6, 7]) State.reset) (·.out.returned)
    = some (.frame ⟨0x051, false, 0x4710, p⟩) := ⟨_, rfl⟩
/-- V117. -/
theorem test_agBuildRequest : seen (exec (.agBuildRequest (.boardnumChange ⟨0x30, 0x30⟩ ⟨0x31, 0x32⟩)) State.reset) (·.out.returned)
    = some (.wire ⟨0x00A44710, true, [0x02, 0x30, 0x30, 0x31, 0x32]⟩) := by decide
/-- V118. -/
theorem test_agInterpret : seen (exec (.agInterpret ⟨0x053, true, 0x4B09, [0x01, 0x30, 0x30]⟩ ⟨0x30, 0x30⟩) State.reset) (·.out.returned)
    = some (.answer (.boardNumber ⟨0x30, 0x30⟩)) := by decide
/-- V119, V120. -/
theorem test_agInterpret_not : seen (exec (.agInterpret ⟨0x053, true, 0x4B09, [0x01, 0x30, 0x30]⟩ ⟨0x30, 0x31⟩) State.reset) (·.out.returned)
      = some (.answer .notForMe)
    ∧ seen (exec (.agInterpret ⟨0x053, false, 0x4B09, [0x01, 0x30, 0x30]⟩ ⟨0x30, 0x30⟩) State.reset) (·.out.returned)
      = some (.answer .notForMe) := by decide

/-! ## The words of the opcode table -/

/-- PING's row (`match = 0x00300000`): decoded, and run as the first instruction after reset (its payload is eight zeros). -/
theorem test_table_ping : decodeTableWord 96 0x00300000 = some (.ping 0 [0, 0, 0, 0, 0, 0, 0, 0])
    ∧ seen (step (State.reset.withFetchWord 96 0x00300000)) (·.out.trace)
      = some [⟨0x00314B09, true, [0x50, 0x09, 0x19, 0x00, 0x01, 0x02, 0x00, 0x53]⟩] := by decide
/-- BTLDR_ANSWER.END's row, payload byte 0 at bits 39:32. -/
theorem test_table_end : decodeTableWord 40 0x0600A20000 = some (.btldrAnswerEnd 0 [0, 0, 0, 0, 0, 0, 0])
    ∧ seen (step (State.reset.withFetchWord 40 0x0600A20000)) (·.phase) = some .finished := by decide
/-- PING.REPLY's row: the application layer sends the frame. -/
theorem test_table_pingReply : decodeTableWord 96 0x00310000 = some (.pingReply 0 ⟨0, 0, 0, 0⟩ 0 0 0)
    ∧ seen (step (State.reset.withFetchWord 96 0x00310000)) (·.out.trace) = some [⟨0x00310000, true, [0, 0, 0, 0, 0, 0, 0, 0]⟩] := by
  decide

/-! ## Witnesses: states and operands that meet the hypotheses of each obligation -/

/-- A step that is seen to answer answers. -/
theorem answers_of_seen {α : Type} {o : Host.Outcome State Fault Refusal} {look : State → α} {v : α} (h : seen o look = some v) :
    ∃ t, o = .next t ∧ look t = v := by
  cases o
  · exact ⟨_, rfl, Option.some.inj h⟩
  all_goals cases h

theorem witness_GenUidAddsWeightedDigits :
    0x30 ≤ (0x30#8).toNat ∧ (0x30#8).toNat ≤ 0x39 ∧ 0x30 ≤ (0x39#8).toNat ∧ (0x39#8).toNat ≤ 0x39 := by decide
theorem witness_application_mode : State.reset.mode = .application := rfl
/-- ConfigStatusRecordsMatchingRequest: a match of exactly five bytes, a payload of four, another identity. -/
theorem witness_ConfigStatusRecordsMatchingRequest : State.reset.mode = .application
    ∧ ([0x50, 0x09, 0x19, 0x00, 0xFF] : List Byte).take 5 = State.reset.ident.uidBytes.toList ++ [0xFF]
    ∧ ([0x50, 0x09, 0x19, 0x00] : List Byte).length < 5
    ∧ ([0x50, 0x09, 0x19, 0x01, 0x00] : List Byte).take 4 ≠ State.reset.ident.uidBytes.toList := by decide
/-- ForAppFiltersOtherAddresses: each of the four rows, too short by one byte or to another address. -/
theorem witness_ForAppFiltersOtherAddresses : State.reset.mode = .application
    ∧ ((Instr.forAppBoardnumRequest 0 [0x30]).wf = true ∧ (Instr.forAppBoardnumRequest 0 [0x30]).context = some .router
      ∧ (Instr.forAppBoardnumRequest 0 [0x30]).frame = some ⟨0x052, false, 0, [0, 0x30]⟩ ∧ ([0, 0x30] : List Byte).length < 3)
    ∧ ((Instr.forAppBoardnumChange 0 [0x39, 0x39, 0x31, 0x32]).frame = some ⟨0x052, false, 0, [2, 0x39, 0x39, 0x31, 0x32]⟩
      ∧ (([2, 0x39, 0x39, 0x31, 0x32] : List Byte).drop 1).take 2 ≠ [State.reset.ident.address.hi, State.reset.ident.address.lo])
    ∧ ((Instr.forAppGoBtldr 0 [0x30, 0x31]).frame = some ⟨0x052, false, 0, [3, 0x30, 0x31]⟩
      ∧ (([3, 0x30, 0x31] : List Byte).drop 1).take 2 ≠ [State.reset.ident.address.hi, State.reset.ident.address.lo])
    ∧ ((Instr.forAppNoHandler 0 []).wf = true ∧ (Instr.forAppNoHandler 0 []).frame = some ⟨0x052, false, 0, []⟩) := by decide
theorem witness_UnhandledSubcommandIsDropped : State.reset.mode = .application ∧ (Instr.forAppNoHandler 0 [0x04, 0x30, 0x30]).wf = true
    ∧ (([0x04, 0x30, 0x30] : List Byte).drop 1).take 2 = [State.reset.ident.address.hi, State.reset.ident.address.lo] := by decide
theorem witness_BoardnumRequestReportsAddress : State.reset.mode = .application
    ∧ ([0x30, 0x30] : List Byte).take 2 = [State.reset.ident.address.hi, State.reset.ident.address.lo] := by decide
/-- BoardnumChangeRepliesThenPersists: three bytes after byte 0; a byte just outside the digits; the last digit. -/
theorem witness_BoardnumChangeRepliesThenPersists : State.reset.mode = .application ∧ State.reset.params.wf = true
    ∧ State.reset.mem.wf = true ∧ ([0x30, 0x30, 0x31] : List Byte).length < 4
    ∧ (([0x30, 0x30, 0x3A, 0x32] : List Byte).drop 2).take 2 = [0x3A, 0x32] ∧ ¬ (0x3A#8).toNat ≤ 0x39
    ∧ (([0x30, 0x30, 0x39, 0x30] : List Byte).drop 2).take 2 = [0x39, 0x30] ∧ (0x39#8).toNat ≤ 0x39 ∧ 0x30 ≤ (0x30#8).toNat
    ∧ ([0x30, 0x30, 0x39, 0x30] : List Byte).take 2 = [State.reset.ident.address.hi, State.reset.ident.address.lo] := by decide
theorem witness_GoBtldrRepliesThenEnters : State.reset.mode = .application ∧ State.reset.mem.wf = true
    ∧ ([0x30, 0x30] : List Byte).take 2 = [State.reset.ident.address.hi, State.reset.ident.address.lo] := by decide
theorem witness_OtherRequestsGoToTheHook : State.reset.mode = .application
    ∧ (0x019 : Command) ≠ 0x018 ∧ (0x019 : Command) ≠ 0x01D ∧ (0x019 : Command) ≠ 0x052 := by decide
theorem witness_StandardFramesAndResponsesAreDropped :
    State.reset.reception ≠ .closed ∧ (waitingFor ⟨0, true, []⟩).reception ≠ .closed ∧ State.reset.mode = .application := by decide
/-- FrameMeaningFollowsReception: a router's row and a receiver's row, in each of the three receptions. -/
theorem witness_FrameMeaningFollowsReception :
    ((Instr.ping 0x4710 []).wf = true ∧ encode (.ping 0x4710 []) = some ⟨0x00304710, true, []⟩
      ∧ (Instr.ping 0x4710 []).context = some .router)
    ∧ ((Instr.btldrAnswerEnd 0x4710 []).wf = true ∧ encode (.btldrAnswerEnd 0x4710 []) = some ⟨0x00A24710, true, [6]⟩
      ∧ (Instr.btldrAnswerEnd 0x4710 []).context = some .poll)
    ∧ State.reset.reception = .router ∧ (waitingFor ⟨0, true, []⟩).reception = .poll ∧ (boot .streaming).reception = .closed := by decide
theorem witness_ReceiveStepsRunTheDecodedFrame : (⟨0x00304710, true, []⟩ : WireFrame).wf = true
    ∧ (received ⟨0x00304710, true, []⟩).reception = .router ∧ (received ⟨0x00304710, true, []⟩).rxQueue = [⟨0x00304710, true, []⟩]
    ∧ (waitingFor ⟨0x00304710, true, []⟩).reception = .poll := by decide
/-- DrainStartsEmission: the last index with a table, and the first without. -/
theorem witness_DrainStartsEmission :
    ∃ s : State, s.mode = .application ∧ s.cfgPending = true ∧ s.cfgEmitActive = false
      ∧ s.cfgIndex.toNat < s.params.cfgTable.length ∧ s.params.cfgTable.length ≤ ({ s with cfgIndex := 1 } : State).cfgIndex.toNat :=
  ⟨{ State.reset with cfgPending := true }, by decide⟩
/-- EmitStepSendsDescriptorOrTerminator: the last row, and the position after it. -/
theorem witness_EmitStepSendsDescriptorOrTerminator :
    ∃ (s : State) (table : List (List Byte)), s.mode = .application ∧ s.cfgEmitActive = true
      ∧ s.params.cfgTable[s.cfgEmitIndex.toNat]? = some table
      ∧ (table[1]? = some [0x41, 0x64, 0x64, 0x72, 0x00, 0x00, 0x00, 0x00]) ∧ table.length ≤ 2 :=
  ⟨{ State.reset with cfgEmitActive := true }, _, rfl, rfl, rfl, by decide⟩
theorem witness_EmissionSendsTheWholeTable :
    ∃ (s : State) (table : List (List Byte)), s.mode = .application ∧ s.env.inputs = [] ∧ s.rxQueue = [] ∧ s.cfgPending = true
      ∧ s.cfgEmitActive = false ∧ s.params.cfgTable[s.cfgIndex.toNat]? = some table :=
  ⟨{ State.reset with cfgPending := true }, _, rfl, rfl, rfl, rfl, rfl, rfl⟩
theorem witness_AnnounceSendsStartData : (boot .awaitingStart).mode = .bootloader ∧ (boot .awaitingStart).phase = .awaitingStart := by
  decide
theorem witness_RequestSendsMoreData : (boot .streaming).mode = .bootloader ∧ (boot .streaming).phase = .streaming
    ∧ (boot .streaming).waiting = false ∧ (boot .streaming).session.chunkLimit < (boot .streaming).session.chunkCursor := by decide
/-- DataReplyLoadsTheChunk: seven bytes, and none. -/
theorem witness_DataReplyLoadsTheChunk : ([1, 2, 3, 4, 5, 6, 0] : List Byte).length ≤ 7 ∧ ([] : List Byte).length ≤ 7
    ∧ (waitingFor ⟨0, true, []⟩).session.localChunk.length = 7 ∧ (waitingFor ⟨0, true, []⟩).reception = .poll
    ∧ ({ boot .streaming with rx := ⟨0x051, false, 0, [5]⟩ } : State).rx.payload = 5 :: [] := by decide
theorem witness_EndReplyFinishesTheStream : (waitingFor ⟨0, true, []⟩).reception = .poll := by decide
/-- UnmatchedFrameIsDiscarded: an extended and a standard frame, a response, a request of the router. -/
theorem witness_UnmatchedFrameIsDiscarded : (waitingFor ⟨0, true, []⟩).reception = .poll
    ∧ (Instr.rxBlDiscard ⟨0x00A24710, true, [4]⟩).wf = true ∧ (Instr.rxBlDiscard ⟨0x00A24710, false, [5]⟩).wf = true
    ∧ (Instr.rxBlDiscard ⟨0x00304710, true, []⟩).wf = true ∧ (Instr.ping 0x4710 []).context = some .router
    ∧ encode (.ping 0x4710 []) = some ⟨0x00304710, true, []⟩ := by decide
/-- A chunk of one byte, for PullAppendsOneByte. -/
def oneByte (cursor : Nat) : State :=
  { boot .streaming with session := { State.reset.session with writeCursor := cursor, chunkCursor := 1, chunkLimit := 1 } }
/-- PullAppendsOneByte: the byte that fills the page, and one before it. -/
theorem witness_PullAppendsOneByte (cursor : Nat) (h : cursor = 7 ∨ cursor = 6) :
    (oneByte cursor).mode = .bootloader ∧ (oneByte cursor).phase = .streaming ∧ (oneByte cursor).waiting = false
      ∧ (oneByte cursor).session.chunkCursor ≤ (oneByte cursor).session.chunkLimit ∧ (oneByte cursor).chunkLegal
      ∧ ((oneByte cursor).session.writeCursor + 1 = (oneByte cursor).params.pageSize ↔ cursor = 7) := by
  rcases h with rfl | rfl
  · exact ⟨rfl, rfl, rfl, by decide, ⟨by decide, by decide, by decide, by decide⟩, by decide⟩
  · exact ⟨rfl, rfl, rfl, by decide, ⟨by decide, by decide, by decide, by decide⟩, by decide⟩
theorem witness_TimeoutAbandonsTheTransfer :
    (∃ s : State, s.params.timeoutEn = true ∧ s.mode = .bootloader ∧ s.phase = .streaming ∧ s.waiting = true ∧ s.env.timeoutExpired = true)
      ∧ State.reset.params.timeoutEn = false :=
  ⟨⟨{ boot .streaming with waiting := true, params := { Params.examples with timeoutEn := true }, env := ⟨[], true, false⟩ }, by decide⟩,
    by decide⟩
/-- FinishCommitsUnconditionally: the last page, and the page after it. -/
theorem witness_FinishCommitsUnconditionally : ∃ s : State, s.mode = .bootloader ∧ s.phase = .finished
    ∧ s.session.pageIndex < s.params.numPages ∧ s.params.numPages ≤ s.session.pageIndex + 1 :=
  ⟨{ boot .finished with session := { State.reset.session with pageIndex := 3 } }, by decide⟩
theorem witness_HandoffStartsTheApplication :
    (boot .handoffToApplication).mode = .bootloader ∧ (boot .handoffToApplication).phase = .handoffToApplication := by decide
/-- A script that brings no matching frame: every kind of event but reset, the agent in a turn in which it has a request of another
kind before it. -/
def silentScript : List Event :=
  [.node, .arrive ⟨0x00304710, true, []⟩, .timer true false, .agentImage [7], .agent, .lose 0, .agentLose 0,
    .call (.agentForAppRequest 0x4710 (.goBtldr ⟨0x30, 0x30⟩))]

/-- WaitWithoutReplyNeverEnds: five steps of that script, the fifth the agent's turn. -/
theorem witness_WaitWithoutReplyNeverEnds :
    let s : State := { waitingFor ⟨0x00A34710, true, [5]⟩ with env := ⟨silentScript, true, false⟩ }
    s.params.timeoutEn = false ∧ s.mode = .bootloader ∧ s.phase = .streaming ∧ s.waiting = true
      ∧ (∀ w ∈ s.rxQueue, w.wf = true ∧ w.answersWait = false) ∧ (∀ e ∈ s.env.inputs.take 5, e.withoutReply)
      ∧ (∀ k u, k < 5 → core.run k s = .next u → u.nextEvent = .agent → u.agServeEnabled = false) := by
  refine ⟨rfl, rfl, rfl, rfl, by decide, ?_, ?_⟩
  · intro e he
    simp only [silentScript, List.take_succ_cons, List.take_zero, List.mem_cons, List.not_mem_nil, or_false] at he
    rcases he with rfl | rfl | rfl | rfl | rfl
    · trivial
    · exact ⟨by decide, by decide⟩
    all_goals trivial
  · intro k u hk hu _
    have served : ∀ j : Fin 5, seen (core.run j { waitingFor ⟨0x00A34710, true, [5]⟩ with env := ⟨silentScript, true, false⟩ })
        (fun t : State => t.agServeEnabled) = some false := by decide
    have := served ⟨k, hk⟩
    rw [hu] at this
    exact Option.some.inj this

/-- The last clause of `Event.withoutReply`: a call that sends a frame that does not match. -/
theorem witness_withoutReply_call : (Event.call (.agentForAppRequest 0x4710 (.goBtldr ⟨0x30, 0x30⟩))).withoutReply :=
  ⟨by decide, fun w hw _ => by cases hw; decide⟩
/-- CommitBeyondTheLastPageStops: beyond the last page with one place left, and with a full page; its last clause is the next witness's. -/
theorem witness_CommitBeyondTheLastPageStops : ∃ s t : State,
    (s.params.numPages ≤ s.session.pageIndex ∧ s.session.writeCursor + 1 = s.params.pageSize)
    ∧ (t.params.numPages ≤ t.session.pageIndex ∧ t.session.writeCursor = t.params.pageSize) :=
  ⟨{ boot .finished with session := { State.reset.session with pageIndex := 4, writeCursor := 7 } },
    { boot .streaming with session := { State.reset.session with pageIndex := 4, writeCursor := 8 } }, by decide⟩
/-- CommitWritesTheWholePage: the last page. -/
theorem witness_CommitWritesTheWholePage : ∃ s : State, s.mem.wf = true ∧ s.session.pageBuffer.length = s.params.pageSize
    ∧ s.session.pageIndex < s.params.numPages ∧ s.params.numPages ≤ s.session.pageIndex + 1 :=
  ⟨{ boot .streaming with session := { State.reset.session with pageIndex := 3 } }, by decide⟩
theorem witness_AgentStartsOnAnnouncement : (agentWith .agIdle 0 (wire 0x00A3#13 0x4B09 [4])).agent.phase = .agIdle
    ∧ (agentWith .agIdle 0 (wire 0x00A3#13 0x4B09 [4])).agent.inbox = [wire 0x00A3#13 0x4B09 (4 :: [])] := by decide
/-- AgentAnswersOneFramePerRequest: the last byte, and none left. -/
theorem witness_AgentAnswersOneFramePerRequest : (agentWith .agServing 9 (wire 0x00A3#13 0x4B09 [5])).agent.phase = .agServing
    ∧ (agentWith .agServing 9 (wire 0x00A3#13 0x4B09 [5])).agent.inbox = [wire 0x00A3#13 0x4B09 (5 :: [])]
    ∧ 9 < (agentWith .agServing 9 (wire 0x00A3#13 0x4B09 [5])).agent.image.length
    ∧ (agentWith .agServing 10 (wire 0x00A3#13 0x4B09 [5])).agent.image.length ≤ 10 := by decide
/-- DataFrameDeliversItsBytes: one byte, the six that fit, none, and the seven that do not. -/
theorem witness_DataFrameDeliversItsBytes : State.reset.session.localChunk.length = 7
    ∧ (1 ≤ ([1] : List Byte).length ∧ ([1, 2, 3, 4, 5, 6] : List Byte).length + State.reset.params.chunkCursorStart.val ≤ 7)
    ∧ (([] : List Byte).length = 0 ∧ 7 < ([1, 2, 3, 4, 5, 6, 7] : List Byte).length + State.reset.params.chunkCursorStart.val) := by decide
/-- StepRunsTheDecodedFrame: a frame for the router, one for a waiting receiver. -/
theorem witness_StepRunsTheDecodedFrame :
    (let s := received ⟨0x00304710, true, []⟩;
      s.nextEvent = .node ∧ s.rxQueue = [⟨0x00304710, true, []⟩] ∧ s.mode = .application
        ∧ decode .router ⟨0x00304710, true, []⟩ = .instr (.ping 0x4710 []))
    ∧ (let s := waitingFor ⟨0x00A24710, true, [6]⟩;
      s.nextEvent = .node ∧ s.rxQueue = [⟨0x00A24710, true, [6]⟩] ∧ s.reception = .poll ∧ s.blTimeoutEnabled = false
        ∧ decode .poll ⟨0x00A24710, true, [6]⟩ = .instr (.btldrAnswerEnd 0x4710 [])) := by decide

/-- The node after reset with one event in its script. -/
def scripted (e : Event) : State := { State.reset with env := ⟨[e], false, false⟩ }

/-- StepRunsTheDecodedFrame: each of the other events, at the boundary of eight bytes where frames arrive. -/
theorem witness_StepRunsTheDecodedFrame_events (e : Event) : (scripted e).nextEvent = e
    ∧ (⟨0, true, nine.drop 1⟩ : WireFrame).wf = true ∧ (⟨0, true, nine⟩ : WireFrame).wf = false
    ∧ (agentWith .agIdle 0 ⟨0x00A34B09, true, [0x04]⟩).agStartEnabled = true
    ∧ (agentWith .agServing 0 ⟨0x00A34B09, true, [0x05]⟩).agServeEnabled = true
    ∧ ((agentWith .agDone 0 ⟨0x00A34B09, true, [0x05]⟩).agStartEnabled = false
      ∧ (agentWith .agDone 0 ⟨0x00A34B09, true, [0x05]⟩).agServeEnabled = false)
    ∧ (callable (.btldrAnswerStartData 0) = true ∧ (Instr.btldrAnswerStartData 0).context = some .transmit
      ∧ callFits (.btldrAnswerStartData 0) = true)
    ∧ callable .reset = false := by
  refine ⟨rfl, ?_⟩
  decide

/-- R215: a frame that arrives is the youngest one, in the transceiver and in the agent's inbox. -/
theorem test_arrive : seen (step { received ⟨0x00304710, true, []⟩ with env := ⟨[.arrive ⟨0x00A44710, true, [0]⟩], false, false⟩ })
    (fun t => (t.rxQueue, t.agent.inbox))
      = some ([⟨0x00304710, true, []⟩, ⟨0x00A44710, true, [0]⟩], [⟨0x00A44710, true, [0]⟩]) := by decide
/-- R13: a call that hands over nine bytes is refused, one that sends eight or fewer runs. -/
theorem test_call : step (scripted (.call (.encode ⟨0, false, 0, nine⟩))) = .refused .frameTooLong
    ∧ seen (step (scripted (.call (.agentDataFrame 0x4710 [])))) (·.rxQueue) = some [⟨0x00A24710, true, [0x05]⟩] :=
  ⟨rfl, by decide⟩
/-- BootloaderStepIsTheEnabledOne: each row of the step table. -/
theorem witness_BootloaderStepIsTheEnabledOne :
    (∀ ph ∈ [Phase.awaitingStart, .streaming, .finished, .handoffToApplication, .halted],
      (boot ph).nextEvent = .node ∧ (boot ph).mode = .bootloader ∧ (boot ph).phase = ph ∧ (boot ph).waiting = false)
    ∧ (boot .streaming).session.chunkLimit < (boot .streaming).session.chunkCursor
    ∧ (oneByte 0).session.chunkCursor ≤ (oneByte 0).session.chunkLimit
    ∧ (∃ w ∈ (waitingFor ⟨0, true, []⟩).rxQueue.head?, w.wf = true) ∧ (waitingFor ⟨0, true, []⟩).params.timeoutEn = false
    ∧ ∃ s : State, s.mode = .bootloader ∧ s.phase = .streaming ∧ s.waiting = true ∧ s.rxQueue = []
        ∧ s.params.timeoutEn = true ∧ s.env.timeoutExpired = true :=
  ⟨by decide, by decide, by decide, ⟨_, rfl, by decide⟩, by decide,
    ⟨{ boot .streaming with waiting := true, params := { Params.examples with timeoutEn := true }, env := ⟨[], true, false⟩ }, by decide⟩⟩
/-- ApplicationStepPriority: each of the four cases. -/
theorem witness_ApplicationStepPriority :
    State.reset.nextEvent = .node ∧ State.reset.mode = .application
    ∧ (∃ w ∈ (received ⟨0, true, []⟩).rxQueue.head?, w.wf = true)
    ∧ (State.reset.rxQueue = [] ∧ State.reset.cfgEmitActive = false ∧ State.reset.cfgPending = false)
    ∧ (({ State.reset with cfgEmitActive := true } : State).cfgEmitActive = true)
    ∧ (({ State.reset with cfgPending := true } : State).cfgPending = true) :=
  ⟨rfl, rfl, ⟨_, rfl, by decide⟩, by decide, rfl, rfl⟩

/-! ### Witnesses of the statements over the invariant -/

/-- A transfer about to begin, of a given image. -/
def begins (image : List Byte) : State :=
  { boot .awaitingStart with agent := { State.reset.agent with image := image } }

theorem begins_inv (image : List Byte) : (begins image).Inv where
  params := by change Params.examples.wf = true; decide
  memory := by change (⟨[], []⟩ : Memory).wf = true; decide
  identity := ⟨by change DeviceIdentity.reset.address = State.reset.persistedAddress; decide, rfl, rfl, rfl⟩
  sequencing := ⟨⟨nofun, nofun⟩, ⟨nofun, nofun⟩, nofun⟩
  emission := ⟨nofun, nofun⟩
  session := by
    intro _
    refine ⟨⟨rfl, by change 1 ≤ 1; decide, by change (1 : Int) ≤ 0 + 1; decide, by change (0 : Int) ≤ 6; decide⟩,
      ⟨⟨nofun, nofun⟩, fun _ => rfl⟩, by change 0 ≤ 4; decide, rfl, by change 0 < 8; decide, ?_⟩
    intro i _ hi
    exact (List.getElem?_replicate (n := 8)).trans (if_pos hi)
  frames := ⟨rfl, rfl, nofun, nofun, nofun⟩

theorem begins_transfer (image : List Byte) : (begins image).transferBegins image :=
  ⟨begins_inv image, rfl, rfl, rfl, rfl, rfl, rfl, rfl, rfl, rfl⟩

theorem begins_transferring (image : List Byte) : (begins image).transferring image (begins image).mem :=
  ⟨rfl, rfl, rfl, rfl, rfl, rfl, rfl, rfl, fun _ _ => rfl⟩

/-- StepKeepsTheInvariant and StepAnswersUnlessHalted: a receiver about to announce itself. -/
theorem witness_StepKeepsTheInvariant : ∃ t, (begins []).Inv ∧ (begins []).nextEvent.withinBounds
    ∧ step (begins []) = .next t := by
  obtain ⟨t, ht, -⟩ := answers_of_seen (show seen (step (begins [])) (·.phase) = some .streaming by decide)
  exact ⟨t, begins_inv [], trivial, ht⟩

/-- OnlyResetLeavesHalted: the timer's event, and reset. -/
theorem witness_OnlyResetLeavesHalted (e : Event) (h : e = .timer true false ∨ e = .reset) :
    ∃ t, ({ boot .halted with env := ⟨[e], false, false⟩ } : State).mode = .bootloader
      ∧ ({ boot .halted with env := ⟨[e], false, false⟩ } : State).phase = .halted
      ∧ step { boot .halted with env := ⟨[e], false, false⟩ } = .next t := by
  rcases h with rfl | rfl <;> exact ⟨_, rfl, rfl, rfl⟩

/-- EachModeWritesItsMemoryOnly, ModeChangesOnlyWhereSpecified, NodeSendsAtMostOneFrameUnderItsHash: GO_BTLDR, which changes the mode. -/
theorem witness_ModeChanges_enter : ∃ t, State.reset.mode = .application ∧ (received ⟨0x00A44710, true, [3, 0x30, 0x30]⟩).nextEvent = .node
    ∧ step (received ⟨0x00A44710, true, [3, 0x30, 0x30]⟩) = .next t ∧ t.mode = .bootloader := by
  obtain ⟨t, ht, hm⟩ := answers_of_seen (show seen (step (received ⟨0x00A44710, true, [3, 0x30, 0x30]⟩)) (·.mode) = some .bootloader by decide)
  exact ⟨t, rfl, rfl, ht, hm⟩

/-- The same statements, from Bootloader mode: the handoff, and an event that is not the node's. -/
theorem witness_ModeChanges_leave (e : Event) (h : e = .node ∨ e = .reset) :
    ∃ t, step { boot .handoffToApplication with env := ⟨[e], false, false⟩ } = .next t
      ∧ (boot .handoffToApplication).mode = .bootloader ∧ t.mode = .application := by
  rcases h with rfl | rfl <;> exact ⟨_, rfl, rfl, rfl⟩

/-- DecodeOfEncodeIsTheInstruction and EncodeOfDecodeIsTheFrame: an instruction of each context. -/
theorem witness_DecodeOfEncodeIsTheInstruction :
    ((Instr.hook 0xFFF 0xFFFF [0, 1, 2, 3, 4, 5, 6, 7]).wf = true ∧ (Instr.hook 0xFFF 0xFFFF [0]).context = some .router
      ∧ encode (.hook 0xFFF 0xFFFF [0]) = some ⟨0x1FFEFFFF, true, [0]⟩)
    ∧ ((Instr.btldrAnswerData 0 [1, 2, 3, 4, 5, 6, 7]).wf = true ∧ (Instr.btldrAnswerData 0 []).context = some .poll
      ∧ encode (.btldrAnswerData 0 []) = some ⟨0x00A20000, true, [5]⟩)
    ∧ ((Instr.configStatusTerminator 0 0xFF 0xFF).context = some .transmit
      ∧ encode (.configStatusTerminator 0 0xFF 0xFF) = some ⟨0x003B0000, true, [0xFF, 0xFF]⟩)
    ∧ ((Instr.agentDataFrame 0 [1]).wf = true ∧ (Instr.agentDataFrame 0 [1]).context = some .agentTransmit
      ∧ encode (.agentDataFrame 0 [1]) = some ⟨0x00A20000, true, [5, 1]⟩) := by decide

/-- StepKeepsTheTransfer: the announcement. -/
theorem witness_StepKeepsTheTransfer : ∃ t, (begins [7]).Inv ∧ (begins [7]).transferring [7] (begins [7]).mem
    ∧ (begins [7]).nextEvent = .node ∧ ¬ ((begins [7]).nextEvent = .node ∧ (begins [7]).phase = .handoffToApplication)
    ∧ step (begins [7]) = .next t := by
  obtain ⟨t, ht, -⟩ := answers_of_seen (show seen (step (begins [7])) (·.phase) = some .streaming by decide)
  exact ⟨t, begins_inv _, begins_transferring _, rfl, by decide, ht⟩

/-- The shortest transfer, of an empty image: announce, start, request, end, poll, finish. -/
def emptyTransfer : List Event := [.node, .agent, .node, .agent, .node, .node]

/-- FinishedTransferLeavesTheImage. -/
theorem witness_FinishedTransferLeavesTheImage :
    let s : State := { begins [] with env := ⟨emptyTransfer, false, false⟩ }
    ∃ t, s.transferBegins [] ∧ (∀ e ∈ s.env.inputs.take 6, e = .node ∨ e = .agent) ∧ 6 ≤ s.env.inputs.length ∧ core.run 6 s = .next t
      ∧ t.mode = .bootloader ∧ t.phase = .handoffToApplication := by
  intro s
  obtain ⟨t, ht, hv⟩ := answers_of_seen (show seen (core.run 6 s) (fun t : State => (t.mode, t.phase))
    = some (.bootloader, .handoffToApplication) by decide)
  have hb := begins_transfer []
  have hi := hb.1
  refine ⟨t, ⟨⟨hi.params, hi.memory, hi.identity, hi.sequencing, hi.emission, hi.session, hi.frames⟩, hb.2⟩, by decide, by decide, ht, ?_, ?_⟩
  · exact congrArg Prod.fst hv
  · exact congrArg Prod.snd hv

/-- FittingImageReachesTheHandoff: the longest image that fits, 31 bytes in four pages of eight. -/
theorem witness_FittingImageReachesTheHandoff : (begins (List.replicate 31 0xAB)).transferBegins (List.replicate 31 0xAB)
    ∧ (List.replicate 31 (0xAB : Byte)).length / (begins (List.replicate 31 0xAB)).params.pageSize
      < (begins (List.replicate 31 0xAB)).params.numPages :=
  ⟨begins_transfer _, by decide⟩

end Sys2Proof.Tests
end

