-- ==== Sys2Proof/Proofs/FrameCodec.lean ====
section
/-! PROOFS. The obligations of the frame codec (spec 40_frame_codec.md): the two rows of the opcode table answer what `encodeFrame` and
`decodeFrame` compute, and the two functions undo one another. -/

namespace Sys2Proof.Proofs.FrameCodec

open Sys2Proof Sys2Proof.Machine

/-- The row `ENCODE` (R90) gives its value to the caller. -/
theorem exec_encode (f : CanFrame) (s : State) : exec (.encode f) s = .next (s.giveBack (.wire (encodeFrame f))) := rfl

/-- The row `DECODE` (R92) gives its value to the caller. -/
theorem exec_decode (id : WireId) (p : List Byte) (s : State) :
    exec (.decode id p) s = .next (s.giveBack (.frame (decodeFrame id p))) := rfl

/-- `ENCODE`'s answer, all three parts of it (R90). -/
theorem encodeFrame_eq (f : CanFrame) : encodeFrame f = ⟨f.command ++ BitVec.ofBool f.responseFlag ++ f.hash, true, f.payload⟩ :=
  encodeFrame_eq_wire f.command f.responseFlag f.hash f.payload

/-- R92's corner case: bit 16 is the response flag and no part of the command or the hash. -/
theorem decodeFrame_flip_responseFlag (id : WireId) (p : List Byte) :
    decodeFrame (id ^^^ 0x00010000#29) p = { decodeFrame id p with responseFlag := !(decodeFrame id p).responseFlag } := by
  have hcommand : (0x00010000#29).extractLsb' 17 12 = 0#12 := by decide
  have hflag : (0x00010000#29).getLsbD 16 = true := by decide
  have hhash : (0x00010000#29).extractLsb' 0 16 = 0#16 := by decide
  simp only [decodeFrame_eq, BitVec.extractLsb'_xor, BitVec.getLsbD_xor, hcommand, hflag, hhash, BitVec.xor_zero, Bool.xor_true]

/-- Settles O1: `DECODE` reads the three fields that `ENCODE` put side by side. -/
theorem decodeAfterEncodeIsIdentity : Obligations.DecodeAfterEncodeIsIdentity := by
  unfold Obligations.DecodeAfterEncodeIsIdentity
  rintro ⟨c, r, h, p⟩
  exact decodeFrame_of_encoded c r h p p

/-- R94's packing: a triple as its 29-bit identifier. -/
def packId (x : Command × Bool × Hash) : WireId := (encodeFrame ⟨x.1, x.2.1, x.2.2, []⟩).id

/-- R94's other direction: an identifier as its triple. -/
def unpackId (id : WireId) : Command × Bool × Hash :=
  ((decodeFrame id []).command, (decodeFrame id []).responseFlag, (decodeFrame id []).hash)

theorem unpackId_packId (x : Command × Bool × Hash) : unpackId (packId x) = x := by
  obtain ⟨c, r, h⟩ := x
  simp only [unpackId, packId, decodeFrame_of_encoded]

theorem packId_unpackId (id : WireId) : packId (unpackId id) = id :=
  congrArg WireFrame.id (encodeFrame_of_decoded id [])

theorem packId_bijective : Function.Bijective packId :=
  Function.bijective_iff_has_inverse.mpr ⟨unpackId, unpackId_packId, packId_unpackId⟩

/-- Settles O2: `ENCODE` of the decoded identifier is the identifier, so `DECODE` is the packing's inverse. -/
theorem encodeAfterDecodeIsIdentity : Obligations.EncodeAfterDecodeIsIdentity :=
  ⟨encodeFrame_of_decoded, packId_bijective⟩

/-- Settles O3: the row answers `encodeFrame f`, which `encodeFrame_eq` writes field by field. -/
theorem encodePacksFields : Obligations.EncodePacksFields := by
  unfold Obligations.EncodePacksFields
  intro f s
  rw [exec_encode, encodeFrame_eq, State.giveBack]

/-- Settles O4: the row answers the slices, and flipping bit 16 flips the response flag only. -/
theorem decodeSplitsFields : Obligations.DecodeSplitsFields := by
  unfold Obligations.DecodeSplitsFields
  intro id p s
  constructor
  · rw [exec_decode, decodeFrame_eq, State.giveBack]
  · rw [exec_decode, decodeFrame_flip_responseFlag, decodeFrame_eq, State.giveBack]

end Sys2Proof.Proofs.FrameCodec
end

