-- ==== Sys2Proof/Proofs/IdentityGenerator.lean ====
section
/-! PROOFS. The obligations of the identity generator (spec 41_identity.md, R100 to R103): the three rows of the opcode table answer what
`genUid`, `serializeUid` and `genHash` compute, and each function is the arithmetic or the bits that its rule writes. -/

namespace Sys2Proof.Proofs.IdentityGenerator

open Sys2Proof Sys2Proof.Machine

/-! ## The rows give their values to the caller -/

/-- The row `GEN_UID` (R100). -/
theorem exec_genUid (base : Uid) (a : Address) (s : State) :
    exec (.genUid base a) s = .next (s.giveBack (.uid (genUid base a))) := rfl

/-- The row `SERIALIZE_UID` (R102). -/
theorem exec_serializeUid (u : Uid) (s : State) :
    exec (.serializeUid u) s = .next (s.giveBack (.uidBytes (serializeUid u))) := rfl

/-- The row `GEN_HASH` (R103). -/
theorem exec_genHash (u : Uid) (s : State) : exec (.genHash u) s = .next (s.giveBack (.hash (genHash u))) := rfl

/-! ## GEN_UID on digits -/

theorem isDigit_iff (b : Byte) : isDigit b = true ↔ 0x30 ≤ b.toNat ∧ b.toNat ≤ 0x39 := by
  simp [isDigit, BitVec.le_def]

theorem bothDigits_iff (a : Address) : bothDigits a = true ↔ isDigit a.hi = true ∧ isDigit a.lo = true :=
  Bool.and_eq_true_iff

/-- R106: on a digit the unsigned subtraction of `'0'` does not borrow, and widening keeps its value. -/
theorem toNat_digitValue {b : Byte} (hb : isDigit b = true) : ((b - 0x30).setWidth 32).toNat = b.toNat - 0x30 := by
  obtain ⟨hmin, -⟩ := (isDigit_iff b).mp hb
  have hle : 0x30#8 ≤ b := hmin
  rw [BitVec.toNat_setWidth_of_le (by decide)]
  exact BitVec.toNat_sub_of_le hle

theorem genUid_of_bothDigits {a : Address} (base : Uid) (ha : bothDigits a = true) :
    genUid base a = base + (a.hi - 0x30).setWidth 32 + 3 * (a.lo - 0x30).setWidth 32 :=
  if_pos ha

/-- R100 and R106: the weighted sum, which wraps at `2^32` and nowhere before. -/
theorem toNat_genUid {a : Address} (base : Uid) (hhi : isDigit a.hi = true) (hlo : isDigit a.lo = true) :
    (genUid base a).toNat = (base.toNat + (a.hi.toNat - 0x30) + 3 * (a.lo.toNat - 0x30)) % 2 ^ 32 := by
  rw [genUid_of_bothDigits base ((bothDigits_iff a).mpr ⟨hhi, hlo⟩)]
  have hthree : (3 : Uid).toNat = 3 := rfl
  simp only [BitVec.toNat_add, BitVec.toNat_mul, hthree, toNat_digitValue hhi, toNat_digitValue hlo]
  omega

/-- Settles O5: the row answers `genUid base a`, whose value on digits is `toNat_genUid`; two digits add at most `9 + 3 × 9`. -/
theorem genUidAddsWeightedDigits : Obligations.GenUidAddsWeightedDigits := by
  unfold Obligations.GenUidAddsWeightedDigits
  intro base a s hhi hhi' hlo hlo'
  have hhiDigit : isDigit a.hi = true := (isDigit_iff a.hi).mpr ⟨hhi, hhi'⟩
  have hloDigit : isDigit a.lo = true := (isDigit_iff a.lo).mpr ⟨hlo, hlo'⟩
  exact ⟨genUid base a, exec_genUid base a s, toNat_genUid base hhiDigit hloDigit, by omega⟩

/-! ## SERIALIZE_UID -/

/-- R102: the four bytes, most significant first, are adjacent slices of the UID and together all of it. -/
theorem serializeUid_append (u : Uid) :
    (serializeUid u).b0 ++ (serializeUid u).b1 ++ (serializeUid u).b2 ++ (serializeUid u).b3 = u := by
  simp only [serializeUid]
  rw [BitVec.extractLsb'_append_extractLsb'_eq_extractLsb' (by decide),
    BitVec.extractLsb'_append_extractLsb'_eq_extractLsb' (by decide),
    BitVec.extractLsb'_append_extractLsb'_eq_extractLsb' (by decide)]
  exact BitVec.extractLsb'_eq_self

/-- Settles O6: the row answers `serializeUid u`, whose bytes put together are `u`. -/
theorem serializeUidIsBigEndian : Obligations.SerializeUidIsBigEndian := by
  unfold Obligations.SerializeUidIsBigEndian
  intro u s
  exact ⟨serializeUid u, exec_serializeUid u s, serializeUid_append u⟩

/-! ## GEN_HASH -/

/-- R103 bit by bit: the mask clears what it does not hold, the second constant sets what it holds. -/
theorem getLsbD_genHash (u : Uid) {k : Nat} (hk : k < 16) :
    (genHash u).getLsbD k
      = (((u.getLsbD (16 + k) ^^ u.getLsbD k) && (0xFF7F#16).getLsbD k) || (0x0300#16).getLsbD k) := by
  simp [genHash, hk]

/-- The mask of R103 keeps every bit but bit 7. -/
theorem getLsbD_hashMask : ∀ k < 16, k ≠ 7 → (0xFF7F#16).getLsbD k = true := by decide

/-- The forced ones of R103 are bits 8 and 9. -/
theorem getLsbD_hashOnes : ∀ k < 16, k ≠ 8 → k ≠ 9 → (0x0300#16).getLsbD k = false := by decide

theorem getLsbD_genHash_seven (u : Uid) : (genHash u).getLsbD 7 = false := by
  rw [getLsbD_genHash u (by decide), show (0xFF7F#16).getLsbD 7 = false by decide, Bool.and_false]
  decide

theorem getLsbD_genHash_forcedOne (u : Uid) {k : Nat} (hk : k < 16) (hone : (0x0300#16).getLsbD k = true) :
    (genHash u).getLsbD k = true := by
  rw [getLsbD_genHash u hk, hone, Bool.or_true]

theorem getLsbD_genHash_free (u : Uid) {k : Nat} (hk : k < 16) (h7 : k ≠ 7) (h8 : k ≠ 8) (h9 : k ≠ 9) :
    (genHash u).getLsbD k = (u.getLsbD (16 + k) ^^ u.getLsbD k) := by
  rw [getLsbD_genHash u hk, getLsbD_hashMask k hk h7, getLsbD_hashOnes k hk h8 h9, Bool.and_true, Bool.or_false]

/-- Settles O7: the row answers `genHash u`, whose three forced bits and thirteen free ones are read off bit by bit. -/
theorem genHashForcesThreeBits : Obligations.GenHashForcesThreeBits := by
  unfold Obligations.GenHashForcesThreeBits
  intro u s
  exact ⟨genHash u, exec_genHash u s, getLsbD_genHash_seven u, getLsbD_genHash_forcedOne u (by decide) (by decide),
    getLsbD_genHash_forcedOne u (by decide) (by decide), fun _ hk h7 h8 h9 => getLsbD_genHash_free u hk h7 h8 h9⟩

end Sys2Proof.Proofs.IdentityGenerator
end

