-- ==== Sys2Proof/Proofs/CommandRouter.lean ====
section
/-! PROOFS. The obligations of the command router (spec 42_command_router.md). `CONFIG_STATUS` (R116): the payload's operands are its
first five bytes, the handler compares the first four of them with the node's identity bytes, and the row runs the handler on the frame
it has latched. -/

namespace Sys2Proof.Proofs.CommandRouter

open Sys2Proof Sys2Proof.Machine

/-! ## The operands of CONFIG_STATUS -/

/-- R68: a payload has the operands exactly when it begins with these five bytes; what follows them is ignored. -/
theorem configOperands_eq_some_iff (p : List Byte) (identity : UidBytes) (index : Byte) :
    configOperands p = some (identity, index) ↔ p.take 5 = identity.toList ++ [index] := by
  obtain ⟨u0, u1, u2, u3⟩ := identity
  rcases p with _ | ⟨b0, _ | ⟨b1, _ | ⟨b2, _ | ⟨b3, _ | ⟨b4, rest⟩⟩⟩⟩⟩ <;>
    simp [configOperands, UidBytes.toList, and_assoc]

/-- A payload that is too short, or begins with other bytes, does not have this identity as its operand. -/
theorem configOperands_ne_some {p : List Byte} {identity : UidBytes} (h : p.length < 5 ∨ p.take 4 ≠ identity.toList) (index : Byte) :
    configOperands p ≠ some (identity, index) := by
  intro hop
  have htake : p.take 5 = identity.toList ++ [index] := (configOperands_eq_some_iff p identity index).mp hop
  rcases h with hshort | hother
  · have hlength : (p.take 5).length = 5 := congrArg List.length htake
    rw [List.length_take] at hlength
    omega
  · have hfour : (p.take 5).take 4 = identity.toList := congrArg (List.take 4) htake
    rw [List.take_take] at hfour
    exact hother hfour

/-! ## The handler of CONFIG_STATUS -/

/-- R116, on a match: the index and the flag, and nothing else. -/
theorem handleConfigStatus_of_match {s : State} {index : Byte} (h : configOperands s.rx.payload = some (s.ident.uidBytes, index)) :
    s.handleConfigStatus = { s with cfgIndex := index, cfgPending := true } := by
  simp only [State.handleConfigStatus, h, if_true]

/-- R116, without a match: the label, and nothing else. -/
theorem handleConfigStatus_of_mismatch {s : State} (h : ∀ index, configOperands s.rx.payload ≠ some (s.ident.uidBytes, index)) :
    s.handleConfigStatus = s.raise .identityMismatch := by
  unfold State.handleConfigStatus
  split
  case h_1 => rfl
  case h_2 identity index hop =>
    have hne : identity ≠ s.ident.uidBytes := fun heq => h index (heq ▸ hop)
    rw [if_neg hne]

/-! ## The row of CONFIG_STATUS -/

/-- The row in Application mode: `rx` first, then the handler (R110). -/
theorem exec_configStatus {s : State} (hmode : s.mode = .application) (h : Hash) (p : List Byte) :
    exec (.configStatus h p) s = .next (s.latchRx ⟨cmdConfigStatus, false, h, p⟩).handleConfigStatus :=
  onRequest_router (reception_application hmode) _ _

/-- Settles O10: the row is its handler on the latched frame; the two clauses are the handler's two cases. -/
theorem configStatusRecordsMatchingRequest : Obligations.ConfigStatusRecordsMatchingRequest := by
  unfold Obligations.ConfigStatusRecordsMatchingRequest
  intro h p s hmode
  rw [exec_configStatus hmode]
  constructor
  · intro index htake
    rw [handleConfigStatus_of_match ((configOperands_eq_some_iff _ _ _).mpr htake)]
    rfl
  · intro hdrop
    rw [handleConfigStatus_of_mismatch (configOperands_ne_some hdrop)]
    rfl

end Sys2Proof.Proofs.CommandRouter
end

