-- ==== Sys2Proof/Proofs/ConfigStream.lean ====
section
/-! PROOFS. The obligations of the configuration stream (spec 43_config_stream.md): `CFG_DRAIN` has two cases and `CFG_EMIT_STEP` has two
cases; with nothing to receive each is the node's whole step, and an emission is an induction over the rows still to be sent. -/

namespace Sys2Proof.Proofs.ConfigStream

open Sys2Proof Sys2Proof.Machine

/-! ## CFG_DRAIN -/

/-- The row `CFG_DRAIN` where R141 enables it. -/
theorem exec_cfgDrain {s : State} (hmode : s.mode = .application) (hpending : s.cfgPending = true) (hidle : s.cfgEmitActive = false) :
    exec .cfgDrain s = .next s.drainConfig :=
  whenEnabled_next (s := s).mpr ⟨by simp [State.cfgDrainEnabled, hmode, hpending, hidle], rfl⟩

theorem drainConfig_of_table {s : State} (h : s.cfgIndex.toNat < s.params.cfgTable.length) :
    s.drainConfig = { s with cfgPending := false, cfgEmitIndex := s.cfgIndex, cfgEmitPos := 0, cfgEmitActive := true } :=
  if_pos h

theorem drainConfig_of_noTable {s : State} (h : s.params.cfgTable.length ≤ s.cfgIndex.toNat) :
    s.drainConfig = { s with cfgPending := false } :=
  if_neg (Nat.not_lt.mpr h)

/-- Settles O20: the row is enabled, and the two clauses are the two cases of `drainConfig`. -/
theorem drainStartsEmission : Obligations.DrainStartsEmission := by
  unfold Obligations.DrainStartsEmission
  intro s hmode hpending hidle
  rw [exec_cfgDrain hmode hpending hidle]
  constructor
  · intro htable
    rw [drainConfig_of_table htable]
  · intro hnone
    rw [drainConfig_of_noTable hnone]

/-! ## CFG_EMIT_STEP -/

/-- The row `CFG_EMIT_STEP` where R142 enables it. -/
theorem exec_cfgEmitStep {s : State} (hmode : s.mode = .application) (hactive : s.cfgEmitActive = true) :
    exec .cfgEmitStep s = .next s.emitConfig :=
  whenEnabled_next (s := s).mpr ⟨by simp [State.cfgEmitEnabled, hmode, hactive], rfl⟩

theorem frameCountOf_of_table {p : Params} {i : Nat} {table : List (List Byte)} (h : p.cfgTable[i]? = some table) :
    frameCountOf p i = table.length := by
  simp only [frameCountOf, h]

theorem tableRow_of_table {p : Params} {i k : Nat} {table : List (List Byte)} {row : List Byte} (h : p.cfgTable[i]? = some table)
    (hrow : table[k]? = some row) : tableRow p i k = row := by
  simp only [tableRow, h, Option.bind_eq_bind, Option.bind_some, hrow]

/-- R142 while there is a row: its descriptor frame is sent and the position moves on. -/
theorem emitConfig_of_row {s : State} {table : List (List Byte)} {row : List Byte}
    (htable : s.params.cfgTable[s.cfgEmitIndex.toNat]? = some table) (hrow : table[s.cfgEmitPos]? = some row) :
    s.emitConfig = { s.withSent 0x01D 0x003B#13 s.ident.hash row with cfgEmitPos := s.cfgEmitPos + 1 } := by
  obtain ⟨hlt, -⟩ := List.getElem?_eq_some_iff.mp hrow
  simp only [State.emitConfig, frameCountOf_of_table htable, tableRow_of_table htable hrow, if_pos hlt, descriptorFrame, mkFrame,
    send_eq_withSent]
  rfl

/-- R144 after the last row: the terminator is sent and the emission ends. -/
theorem emitConfig_of_end {s : State} {table : List (List Byte)}
    (htable : s.params.cfgTable[s.cfgEmitIndex.toNat]? = some table) (hend : table.length ≤ s.cfgEmitPos) :
    s.emitConfig = { s.withSent 0x01D 0x003B#13 s.ident.hash [s.cfgEmitIndex, BitVec.ofNat 8 table.length] with
      cfgEmitActive := false } := by
  simp only [State.emitConfig, frameCountOf_of_table htable, if_neg (Nat.not_lt.mpr hend), terminatorFrame, mkFrame, send_eq_withSent]
  rfl

/-! ## The node's step with nothing to receive -/

/-- The application's idle context is undisturbed (R145, R208): no event but the node's turn, and no frame available. -/
structure Undisturbed (s : State) : Prop where
  mode : s.mode = .application
  inputs : s.env.inputs = []
  rxQueue : s.rxQueue = []

theorem Undisturbed.atTurn {s : State} (h : Undisturbed s) : Undisturbed s.atTurn :=
  ⟨h.mode, congrArg (List.drop 1) h.inputs, h.rxQueue⟩

/-- The step is the application's idle turn: the emission in progress first, then the pending request (R141, R142). -/
theorem Undisturbed.step_eq_turn {s : State} (h : Undisturbed s) :
    step s = (if s.cfgEmitActive then Turn.run .cfgEmitStep s.atTurn
      else if s.cfgPending then .run .cfgDrain s.atTurn else .rest s.atTurn).outcome := by
  have hevent : s.nextEvent = .node := by simp only [State.nextEvent, h.inputs]
  rw [step_eq, hevent]
  simp only [State.eventTurn, State.nodeTurn, h.atTurn.mode, State.applicationTurn, h.atTurn.rxQueue]
  rfl

theorem Undisturbed.step_emits {s : State} (h : Undisturbed s) (hactive : s.cfgEmitActive = true) :
    step s = .next s.atTurn.emitConfig := by
  rw [h.step_eq_turn, if_pos hactive]
  exact exec_cfgEmitStep h.atTurn.mode hactive

theorem Undisturbed.step_drains {s : State} (h : Undisturbed s) (hidle : s.cfgEmitActive = false) (hpending : s.cfgPending = true) :
    step s = .next s.atTurn.drainConfig := by
  rw [h.step_eq_turn, if_neg (by simp [hidle]), if_pos hpending]
  exact exec_cfgDrain h.atTurn.mode hpending hidle

/-! ## An undisturbed emission -/

/-- What an emission of index `i` under `hash` still sends (R145): the remaining rows of its `n`, then the terminator. -/
def emissionFrames (hash : Hash) (i : Byte) (n : Nat) (rows : List (List Byte)) : List WireFrame :=
  rows.map (wire 0x003B#13 hash) ++ [wire 0x003B#13 hash [i, BitVec.ofNat 8 n]]

/-- An undisturbed emission of `table` in progress, with `rows` still to be sent. -/
structure Emitting (table rows : List (List Byte)) (s : State) : Prop where
  undisturbed : Undisturbed s
  notPending : s.cfgPending = false
  active : s.cfgEmitActive = true
  hasTable : s.params.cfgTable[s.cfgEmitIndex.toNat]? = some table
  remaining : table.drop s.cfgEmitPos = rows

/-- Between the two states the node sends exactly these frames; memories and identity are as they were. -/
structure Sends (frames : List WireFrame) (s t : State) : Prop where
  trace : t.out.trace = s.out.trace ++ frames
  mem : t.mem = s.mem
  ident : t.ident = s.ident

theorem Sends.trans {fs gs : List WireFrame} {s t u : State} (h : Sends fs s t) (h' : Sends gs t u) : Sends (fs ++ gs) s u :=
  ⟨by rw [h'.trace, h.trace, List.append_assoc], h'.mem.trans h.mem, h'.ident.trans h.ident⟩

/-- R141: the drain of a pending request whose index has a table sends nothing and leaves the emission at the first row. -/
theorem Undisturbed.step_drain {table : List (List Byte)} {s : State} (h : Undisturbed s) (hidle : s.cfgEmitActive = false)
    (hpending : s.cfgPending = true) (htable : s.params.cfgTable[s.cfgIndex.toNat]? = some table) :
    ∃ u, step s = .next u ∧ Emitting table table u ∧ Sends [] s u ∧ u.cfgEmitIndex = s.cfgIndex := by
  obtain ⟨hlt, -⟩ := List.getElem?_eq_some_iff.mp htable
  refine ⟨_, h.step_drains hidle hpending, ?_⟩
  rw [drainConfig_of_table (s := s.atTurn) hlt]
  exact ⟨⟨⟨h.mode, h.atTurn.inputs, h.rxQueue⟩, rfl, rfl, htable, rfl⟩, ⟨(List.append_nil _).symm, rfl, rfl⟩, rfl⟩

/-- R142: a step with a row left sends it, and the emission goes on with the other rows. -/
theorem Emitting.step_row {table rows : List (List Byte)} {row : List Byte} {s : State} (h : Emitting table (row :: rows) s) :
    ∃ u, step s = .next u ∧ Emitting table rows u ∧ Sends [wire 0x003B#13 s.ident.hash row] s u
      ∧ u.cfgEmitIndex = s.cfgEmitIndex := by
  have hrow : table[s.cfgEmitPos]? = some row := by rw [← List.head?_drop, h.remaining, List.head?_cons]
  have hrest : table.drop (s.cfgEmitPos + 1) = rows := by rw [← List.tail_drop, h.remaining, List.tail_cons]
  refine ⟨_, h.undisturbed.step_emits h.active, ?_⟩
  rw [emitConfig_of_row (s := s.atTurn) h.hasTable hrow]
  exact ⟨⟨⟨h.undisturbed.mode, h.undisturbed.atTurn.inputs, h.undisturbed.rxQueue⟩, h.notPending, h.active, h.hasTable, hrest⟩,
    ⟨rfl, rfl, rfl⟩, rfl⟩

/-- R144: a step with no row left sends the terminator, and the emission is over. -/
theorem Emitting.step_end {table : List (List Byte)} {s : State} (h : Emitting table [] s) :
    ∃ t, step s = .next t ∧ Sends (emissionFrames s.ident.hash s.cfgEmitIndex table.length []) s t
      ∧ t.cfgPending = false ∧ t.cfgEmitActive = false := by
  refine ⟨_, h.undisturbed.step_emits h.active, ?_⟩
  rw [emitConfig_of_end (s := s.atTurn) h.hasTable (List.drop_eq_nil_iff.mp h.remaining)]
  exact ⟨⟨rfl, rfl, rfl⟩, h.notPending, rfl⟩

/-- R145 from any position of the table: one step per remaining row, then one for the terminator. -/
theorem Emitting.run {table rows : List (List Byte)} {s : State} (h : Emitting table rows s) :
    ∃ t, core.run (rows.length + 1) s = .next t ∧ Sends (emissionFrames s.ident.hash s.cfgEmitIndex table.length rows) s t
      ∧ t.cfgPending = false ∧ t.cfgEmitActive = false := by
  induction rows generalizing s with
  | nil =>
    obtain ⟨t, hstep, hdone⟩ := h.step_end
    exact ⟨t, run_step core 0 hstep, hdone⟩
  | cons row rows ih =>
    obtain ⟨u, hstep, hu, hsends, hindex⟩ := h.step_row
    obtain ⟨t, hrun, hrest, hflags⟩ := ih hu
    rw [hindex, hsends.ident] at hrest
    exact ⟨t, (run_step core (rows.length + 1) hstep).trans hrun, hsends.trans hrest, hflags⟩

/-- Settles O22: the drain takes one step and sends nothing; `Emitting.run` from the first row does the rest. -/
theorem emissionSendsTheWholeTable : Obligations.EmissionSendsTheWholeTable := by
  unfold Obligations.EmissionSendsTheWholeTable
  intro s table hmode hinputs hqueue hpending hidle htable
  have hundisturbed : Undisturbed s := ⟨hmode, hinputs, hqueue⟩
  obtain ⟨u, hstep, hemitting, hdrain, hindex⟩ := hundisturbed.step_drain hidle hpending htable
  obtain ⟨t, hrun, hemission, hnotPending, hnotActive⟩ := hemitting.run
  rw [hindex, hdrain.ident] at hemission
  obtain ⟨htrace, hmem, hident⟩ := hdrain.trans hemission
  refine ⟨t, (run_step core (table.length + 1) hstep).trans hrun, ?_, hnotPending, hnotActive, hmem, hident⟩
  rw [htrace, List.nil_append, emissionFrames, List.append_assoc]

end Sys2Proof.Proofs.ConfigStream
end

