-- ==== Sys2Proof/Proofs/UpdateReceiver.lean ====
section
/-! PROOFS. The obligations of the update receiver (spec 44_update_receiver.md): an end reply, a frame that does not match the wait, the
final commit, and the wait that no reply ends. The last is an induction over the steps of a run: every event but a reset, a matching
frame or the agent's answer leaves the receiver in its wait. -/

namespace Sys2Proof.Proofs.UpdateReceiver

open Sys2Proof Sys2Proof.Machine

/-! ## END_OF_DATA -/

/-- The row `BTLDR_ANSWER.END` in the wait (R161): `rx` first, then `END_OF_DATA`. -/
theorem exec_btldrAnswerEnd {s : State} (hpoll : s.reception = .poll) (h : Hash) (r : List Byte) :
    exec (.btldrAnswerEnd h r) s = .next (s.latchRx ⟨cmdBtldrAnswer, false, h, subEndData :: r⟩).endOfData := by
  simp only [exec, execBtldrAnswerEnd, onPoll_poll hpoll]

/-- Settles O27: the row in the wait is `END_OF_DATA` on the latched frame, which looks at no byte of it. -/
theorem endReplyFinishesTheStream : Obligations.EndReplyFinishesTheStream := by
  unfold Obligations.EndReplyFinishesTheStream
  intro h r s
  refine ⟨rfl, fun hpoll => ?_⟩
  rw [exec_btldrAnswerEnd hpoll]
  rfl

/-! ## A frame that does not match the wait -/

/-- The row `RX.BL_DISCARD` in the wait (R162): `rx` at most. -/
theorem exec_rxBlDiscard {s : State} (hpoll : s.reception = .poll) (w : WireFrame) :
    exec (.rxBlDiscard w) s = .next (if w.ext then s.latchRx (decodeFrame w.id w.payload) else s) :=
  onPoll_poll hpoll _ _

/-- Every row of the router is its handler behind `onRouter`, on the row's own wire frame (R76). -/
theorem exec_routerRow {i : Instr} {w : WireFrame} (hrow : i.context = some .router) (henc : encode i = some w) :
    ∃ handler : State → State, ∀ s, exec i s = s.onRouter w handler := by
  cases i
  all_goals cases hrow
  all_goals
    cases henc
    exact ⟨_, fun _ => rfl⟩

/-- A row of the router met in the wait is polled like any other frame (R162). -/
theorem exec_routerRow_poll {i : Instr} {w : WireFrame} {s : State} (hrow : i.context = some .router) (henc : encode i = some w)
    (hpoll : s.reception = .poll) : exec i s = .next (s.pollFrame w) := by
  obtain ⟨handler, hexec⟩ := exec_routerRow hrow henc
  rw [hexec, onRouter_poll hpoll]

/-- The frames of the row `RX.BL_DISCARD` are those that do not match. -/
theorem answersWait_of_discard_wf {w : WireFrame} (h : (Instr.rxBlDiscard w).wf = true) : w.answersWait = false := by
  simp only [Instr.wf, Bool.and_eq_true, Bool.not_eq_true'] at h
  exact h.2

/-- Settles O28: the discard row and polling an unmatched frame do the same, and a router row is polled. -/
theorem unmatchedFrameIsDiscarded : Obligations.UnmatchedFrameIsDiscarded := by
  unfold Obligations.UnmatchedFrameIsDiscarded
  intro w s hpoll hwf
  refine ⟨exec_rxBlDiscard hpoll w, fun i hrow _ henc => ?_⟩
  rw [exec_routerRow_poll hrow henc hpoll, pollFrame_no_match s (answersWait_of_discard_wf hwf)]
  rfl

/-! ## BL_FINISH -/

/-- The row `BL_FINISH` where R168 enables it. -/
theorem exec_blFinish {s : State} (hmode : s.mode = .bootloader) (hphase : s.phase = .finished) :
    exec .blFinish s = .next s.finishTransfer :=
  whenEnabled_next (s := s).mpr ⟨by simp [State.blFinishEnabled, State.inPhase, hmode, hphase], rfl⟩

/-- A commit of a page that exists leaves the phase alone (R181). -/
theorem commitPage_phase {s : State} (h : s.session.pageIndex < s.params.numPages) : s.commitPage.phase = s.phase := by
  rw [State.commitPage, if_neg (Nat.not_le.mpr h)]
  rfl

/-- A commit beyond the last page stops the receiver (R186). -/
theorem commitPage_phase_beyond {s : State} (h : s.params.numPages ≤ s.session.pageIndex) : s.commitPage.phase = .halted := by
  rw [State.commitPage, if_pos h, stopAtPageRange_phase]

theorem finishTransfer_of_running {s : State} (h : s.commitPage.phase ≠ .halted) :
    s.finishTransfer = { s.commitPage with phase := .handoffToApplication } :=
  if_neg h

theorem finishTransfer_of_halted {s : State} (h : s.commitPage.phase = .halted) : s.finishTransfer = s.commitPage :=
  if_pos h

/-- Settles O31: the row is the commit and then, by the phase the commit left, the handoff or nothing. -/
theorem finishCommitsUnconditionally : Obligations.FinishCommitsUnconditionally := by
  unfold Obligations.FinishCommitsUnconditionally
  intro s hmode hphase
  rw [exec_blFinish hmode hphase]
  constructor
  · intro hpage
    have hrunning : s.commitPage.phase ≠ .halted := by simp [commitPage_phase hpage, hphase]
    exact ⟨s.commitPage, rfl, by rw [finishTransfer_of_running hrunning]⟩
  · intro hbeyond
    have hhalted := commitPage_phase_beyond hbeyond
    exact ⟨s.commitPage, rfl, by rw [finishTransfer_of_halted hhalted], hhalted⟩

/-! ## A wait that no reply ends -/

/-- Frames the transceiver can hold (R13), none of which matches the wait. -/
def NoReply (q : List WireFrame) : Prop := ∀ w ∈ q, w.wf = true ∧ w.answersWait = false

theorem NoReply.append_singleton {q : List WireFrame} {w : WireFrame} (h : NoReply q) (hwf : w.wf = true)
    (hno : w.answersWait = false) : NoReply (q ++ [w]) :=
  List.forall_mem_append.mpr ⟨h, List.forall_mem_singleton.mpr ⟨hwf, hno⟩⟩

/-- A receiver in its wait, without a timeout, and with no reply in the transceiver (R165). -/
structure UnansweredWait (s : State) : Prop where
  noTimeout : s.params.timeoutEn = false
  mode : s.mode = .bootloader
  phase : s.phase = .streaming
  waiting : s.waiting = true
  noReply : NoReply s.rxQueue

/-- What R165 says a silent wait leaves as it is, and the parameters: the receiver's registers, `TX` and the memories. -/
structure Receiver where
  params : Params
  mode : Mode
  phase : Phase
  waiting : Bool
  trace : List WireFrame
  mem : Memory
  session : TransferSession

/-- The receiver's part of the machine. -/
def receiverOf (s : State) : Receiver := ⟨s.params, s.mode, s.phase, s.waiting, s.out.trace, s.mem, s.session⟩

/-- From `s` to `t` the receiver has stayed where it was, sent nothing and committed nothing, and no reply has come. -/
structure StaysSilent (s t : State) : Prop where
  receiver : receiverOf t = receiverOf s
  noReply : NoReply t.rxQueue

theorem StaysSilent.trans {s t u : State} (h : StaysSilent s t) (h' : StaysSilent t u) : StaysSilent s u :=
  ⟨h'.receiver.trans h.receiver, h'.noReply⟩

theorem StaysSilent.unansweredWait {s t : State} (h : StaysSilent s t) (hs : UnansweredWait s) : UnansweredWait t where
  noTimeout := (congrArg (fun r => r.params.timeoutEn) h.receiver).trans hs.noTimeout
  mode := (congrArg Receiver.mode h.receiver).trans hs.mode
  phase := (congrArg Receiver.phase h.receiver).trans hs.phase
  waiting := (congrArg Receiver.waiting h.receiver).trans hs.waiting
  noReply := h.noReply

namespace UnansweredWait

variable {s : State}

theorem staysSilent_refl (h : UnansweredWait s) : StaysSilent s s := ⟨rfl, h.noReply⟩

theorem atTurn (h : UnansweredWait s) : UnansweredWait s.atTurn := ⟨h.noTimeout, h.mode, h.phase, h.waiting, h.noReply⟩

/-- Polling a frame that does not match changes `rx` at most (R162). -/
theorem pollFrame_staysSilent (h : UnansweredWait s) {w : WireFrame} (hno : w.answersWait = false) : StaysSilent s (s.pollFrame w) := by
  rw [pollFrame_no_match s hno]
  split
  · exact ⟨rfl, h.noReply⟩
  · exact h.staysSilent_refl

/-- The node's turn: blocked without a frame, and with one it discards the frame; there is no timeout to take (R165). -/
theorem nodeTurn_staysSilent (h : UnansweredWait s) : ∃ t, s.nodeTurn.outcome = .next t ∧ StaysSilent s t := by
  have hturn : s.nodeTurn = s.waitTurn := by simp only [State.nodeTurn, h.mode, State.bootloaderTurn, h.phase, h.waiting, if_true]
  have hnever : s.blTimeoutEnabled = false := by simp [State.blTimeoutEnabled, h.noTimeout]
  rw [hturn]
  cases hq : s.rxQueue with
  | nil =>
    have hblocked : s.waitTurn = .rest s := by simp only [State.waitTurn, hq, hnever, Bool.false_eq_true, if_false]
    exact ⟨s, by rw [hblocked]; rfl, h.staysSilent_refl⟩
  | cons w rest =>
    obtain ⟨⟨hwf, hno⟩, hrest⟩ := List.forall_mem_cons.mp (hq ▸ h.noReply)
    have htaken : UnansweredWait { s with rxQueue := rest } := ⟨h.noTimeout, h.mode, h.phase, h.waiting, hrest⟩
    have hpoll : ({ s with rxQueue := rest } : State).reception = .poll := (reception_poll_iff _).mpr ⟨h.mode, h.phase, h.waiting⟩
    have hreceive : s.waitTurn = .run (decodePoll w) { s with rxQueue := rest } := by
      simp only [State.waitTurn, hq, hnever, Bool.false_and, Bool.false_eq_true, if_false, State.receiveTurn, decode_poll_of_wf hwf]
    have htake : StaysSilent s { s with rxQueue := rest } := ⟨rfl, hrest⟩
    exact ⟨_, by rw [hreceive]; exact exec_decodePoll w hpoll, htake.trans (htaken.pollFrame_staysSilent hno)⟩

/-- The agent's turn without an answer: it starts or ignores its frame, and sends nothing (R192, R193). -/
theorem agentTurn_staysSilent (h : UnansweredWait s) (hserve : s.agServeEnabled = false) :
    ∃ t, s.agentTurn.outcome = .next t ∧ StaysSilent s t := by
  cases hstart : s.agStartEnabled with
  | true =>
    have hturn : s.agentTurn = .run .agStart s := by rw [State.agentTurn, hstart, if_pos rfl]
    exact ⟨s.startServing, by rw [hturn]; exact whenEnabled_next (s := s).mpr ⟨hstart, rfl⟩, ⟨rfl, h.noReply⟩⟩
  | false =>
    have hturn : s.agentTurn = .rest s.agentTakes := by simp [State.agentTurn, hstart, hserve]
    exact ⟨s.agentTakes, by rw [hturn]; rfl, ⟨rfl, h.noReply⟩⟩

/-- A call that sends no reply: what it sends from the console joins the transceiver's frames; the node itself sends nothing outside
Application mode. -/
theorem callTurn_staysSilent (h : UnansweredWait s) {i : Instr} (hi : (Event.call i).withoutReply) :
    ∃ t, (s.callTurn i).outcome = .next t ∧ StaysSilent s t := by
  obtain ⟨hfits, hno⟩ := hi
  obtain ⟨t, ht⟩ := callTurn_answers s hfits
  refine ⟨t, ht, ?_⟩
  cases callTurn_next i ht with
  | callNothing => exact h.staysSilent_refl
  | callReturns => exact ⟨rfl, h.noReply⟩
  | callSends _ _ happ => cases happ.symm.trans h.mode
  | callAgentSends _ _ henc hrow hwf => exact ⟨rfl, h.noReply.append_singleton hwf (hno _ henc hrow)⟩

/-- Every event that brings no reply leaves the receiver in its wait. -/
theorem eventTurn_staysSilent (h : UnansweredWait s) {e : Event} (he : e.withoutReply) (hserve : e = .agent → s.agServeEnabled = false) :
    ∃ t, (s.eventTurn e).outcome = .next t ∧ StaysSilent s t := by
  cases e with
  | node => exact h.nodeTurn_staysSilent
  | arrive w =>
    obtain ⟨hwf, hno⟩ := he
    exact ⟨_, congrArg Turn.outcome (if_pos hwf), ⟨rfl, h.noReply.append_singleton hwf hno⟩⟩
  | lose k => exact ⟨_, rfl, ⟨rfl, fun w hw => h.noReply w (List.mem_of_mem_eraseIdx hw)⟩⟩
  | timer expired first => exact ⟨_, rfl, ⟨rfl, h.noReply⟩⟩
  | reset => exact he.elim
  | agent => exact h.agentTurn_staysSilent (hserve rfl)
  | agentLose k => exact ⟨_, rfl, ⟨rfl, h.noReply⟩⟩
  | agentImage image => exact ⟨_, rfl, ⟨rfl, h.noReply⟩⟩
  | call i => exact h.callTurn_staysSilent he

/-- The step: its event is carried out at `atTurn`, where the receiver, the transceiver and the agent are as they were. -/
theorem step_staysSilent (h : UnansweredWait s) (he : s.nextEvent.withoutReply)
    (hserve : s.nextEvent = .agent → s.agServeEnabled = false) : ∃ t, step s = .next t ∧ StaysSilent s t := by
  obtain ⟨t, ht, hsilent⟩ := h.atTurn.eventTurn_staysSilent he hserve
  have hturn : StaysSilent s s.atTurn := ⟨rfl, h.noReply⟩
  exact ⟨t, (step_eq s).trans ht, hturn.trans hsilent⟩

end UnansweredWait

/-- The next event is one of the script's next ones, or the node's turn, which brings no reply. -/
theorem nextEvent_withoutReply {s : State} {n : Nat} (h : ∀ e ∈ s.env.inputs.take (n + 1), e.withoutReply) :
    s.nextEvent.withoutReply := by
  unfold State.nextEvent
  cases hin : s.env.inputs with
  | nil => trivial
  | cons e es => exact h e (by simp [hin])

/-- The wait goes on through every run without a reply. -/
theorem UnansweredWait.run_staysSilent {n : Nat} {s : State} (h : UnansweredWait s)
    (hscript : ∀ e ∈ s.env.inputs.take n, e.withoutReply)
    (hserve : ∀ k u, k < n → core.run k s = .next u → u.nextEvent = .agent → u.agServeEnabled = false) :
    ∃ t, core.run n s = .next t ∧ StaysSilent s t := by
  induction n generalizing s with
  | zero => exact ⟨s, rfl, h.staysSilent_refl⟩
  | succ n ih =>
    obtain ⟨u, hstep, hsilent⟩ := h.step_staysSilent (nextEvent_withoutReply hscript) (hserve 0 s (Nat.succ_pos n) rfl)
    have hrest : ∀ e ∈ u.env.inputs.take n, e.withoutReply := by
      intro e he
      rw [(step_setting hstep).2, ← Nat.add_sub_cancel (n := n) (m := 1), ← List.drop_take] at he
      exact hscript e (List.mem_of_mem_drop he)
    have hserve' : ∀ k v, k < n → core.run k u = .next v → v.nextEvent = .agent → v.agServeEnabled = false :=
      fun k v hk hv => hserve (k + 1) v (Nat.succ_lt_succ hk) ((run_step core k hstep).trans hv)
    obtain ⟨t, hrun, hsilent'⟩ := ih (hsilent.unansweredWait h) hrest hserve'
    exact ⟨t, (run_step core n hstep).trans hrun, hsilent.trans hsilent'⟩

/-- Settles O33: the run stays silent, and the wait at its end is the wait at its start. -/
theorem waitWithoutReplyNeverEnds : Obligations.WaitWithoutReplyNeverEnds := by
  unfold Obligations.WaitWithoutReplyNeverEnds
  intro n s htimeout hmode hphase hwaiting hqueue hscript hserve
  have hwait : UnansweredWait s := ⟨htimeout, hmode, hphase, hwaiting, hqueue⟩
  obtain ⟨t, hrun, hsilent⟩ := hwait.run_staysSilent hscript hserve
  have hstill : UnansweredWait t := hsilent.unansweredWait hwait
  exact ⟨t, hrun, hstill.mode, hstill.phase, hstill.waiting, congrArg Receiver.trace hsilent.receiver,
    congrArg Receiver.mem hsilent.receiver, congrArg Receiver.session hsilent.receiver⟩

end Sys2Proof.Proofs.UpdateReceiver
end

