-- ==== Sys2Proof/Proofs/FlashPager.lean ====
section
/-! PROOFS. The obligation of the flash pager (spec 45_flash_pager.md): a commit of a page that exists is one block write of the whole
buffer to FLASH, and the memory laws of block writes say what each byte holds after it. -/

namespace Sys2Proof.Proofs.FlashPager

open Sys2Proof Sys2Proof.Machine

/-- R181 for a page that exists: the buffer goes to its page as one block, the session gets an empty page and the next index. -/
theorem commitPage_of_page {s : State} (hbuffer : s.session.pageBuffer.length = s.params.pageSize)
    (hpage : s.session.pageIndex < s.params.numPages) :
    s.commitPage = { s.writeFlash (pageAddress s.params s.session.pageIndex) s.session.pageBuffer with
      session := { s.session.withEmptyPage s.params.pageSize with pageIndex := s.session.pageIndex + 1 } } := by
  rw [State.commitPage, if_neg (Nat.not_le.mpr hpage), List.take_of_length_le hbuffer.le]
  rfl

/-- A block write touches its own space and its own addresses only. -/
theorem sameMemoryOutside_writeList (m : Memory) (sp : Space) (a : Nat) {vs : List Byte} {n : Nat} (hlength : vs.length = n) :
    sameMemoryOutside m (m.writeList sp a vs) sp a n := by
  subst hlength
  exact fun _ _ houtside => read_writeList_other m vs houtside

/-- Settles O34: the memory after the commit is the block write of the buffer at the page's address. -/
theorem commitWritesTheWholePage : Obligations.CommitWritesTheWholePage := by
  unfold Obligations.CommitWritesTheWholePage
  intro s hmem hbuffer hpage
  refine ⟨s.mem.writeList .flash (pageAddress s.params s.session.pageIndex) s.session.pageBuffer, ?state, ?inside, ?outside⟩
  case state => exact congrArg Host.Outcome.next (commitPage_of_page hbuffer hpage)
  case inside => exact fun i hi => read_writeList_inside hmem .flash _ _ (hbuffer ▸ hi)
  case outside => exact sameMemoryOutside_writeList s.mem .flash _ hbuffer

end Sys2Proof.Proofs.FlashPager
end

