-- ==== Sys2Proof/Proofs/UpdateAgent.lean ====
section
/-! PROOFS. The obligation of the update agent (spec 46_update_agent.md, R198): the row `AG_INTERPRET` gives back `interpretAnswer`, which
is `NotForMe` unless the frame is an `APP_ANSWER` response of the board, and then depends on byte 0 only. -/

namespace Sys2Proof.Proofs.UpdateAgent

open Sys2Proof Sys2Proof.Machine

/-- The row `AG_INTERPRET` (R198) gives its value to the caller. -/
theorem exec_agInterpret (f : CanFrame) (y : Address) (s : State) :
    exec (.agInterpret f y) s = .next (s.giveBack (.answer (interpretAnswer f y))) := rfl

/-- R198's condition: the frame is an `APP_ANSWER` response with byte 0 `b` and the address of board `y` after it. -/
def AnswersFor (y : Address) (b : Byte) (f : CanFrame) : Prop :=
  f.command = 0x053 ∧ f.responseFlag = true ∧ f.payload.take 3 = [b, y.hi, y.lo]

/-- R198's answer by byte 0 of the board's response; `interpretAnswer_of_answersFor` ties it to the model. -/
def answerOfByte (y : Address) (b : Byte) : Answer :=
  if b = 1 then .boardNumber y else if b = 2 then .changeAcknowledged y else if b = 3 then .bootloaderEntered else .notForMe

/-- The board's response is read by its byte 0. -/
theorem interpretAnswer_of_answersFor {y : Address} {b : Byte} {f : CanFrame} (hf : AnswersFor y b f) :
    interpretAnswer f y = answerOfByte y b := by
  obtain ⟨c, r, h, payload⟩ := f
  obtain ⟨hcommand, hresponse, htake⟩ := hf
  match payload with
  | b₀ :: y₀ :: y₁ :: rest =>
    obtain ⟨rfl, rfl, rfl⟩ : b₀ = b ∧ y₀ = y.hi ∧ y₁ = y.lo := by simpa using htake
    exact (if_pos ⟨hcommand, hresponse⟩).trans (if_pos ⟨rfl, rfl⟩)

/-- Every other frame is not for the board. -/
theorem interpretAnswer_of_not_answersFor {y : Address} {f : CanFrame} (hf : ∀ b, ¬ AnswersFor y b f) :
    interpretAnswer f y = .notForMe := by
  by_cases hkind : f.command = 0x053 ∧ f.responseFlag = true
  · obtain ⟨c, r, h, payload⟩ := f
    refine (if_pos hkind).trans ?_
    match payload with
    | [] | [_] | [_, _] => rfl
    | b :: y₀ :: y₁ :: rest =>
      refine if_neg fun ⟨hhi, hlo⟩ => hf b ⟨hkind.1, hkind.2, ?_⟩
      simp [hhi, hlo]
  · exact if_neg hkind

/-- An answer other than `NotForMe` comes from a response of the board, with a byte 0 that stands for it. -/
theorem interpretAnswer_eq_iff {y : Address} {f : CanFrame} {a : Answer} (ha : a ≠ .notForMe) :
    interpretAnswer f y = a ↔ ∃ b, answerOfByte y b = a ∧ AnswersFor y b f := by
  constructor
  · intro hanswer
    obtain ⟨b, hb⟩ : ∃ b, AnswersFor y b f := by
      by_contra hnone
      exact ha (hanswer.symm.trans (interpretAnswer_of_not_answersFor (not_exists.mp hnone)))
    exact ⟨b, (interpretAnswer_of_answersFor hb).symm.trans hanswer, hb⟩
  · rintro ⟨b, rfl, hb⟩
    exact interpretAnswer_of_answersFor hb

/-- The bytes stand for different answers, so an answer that byte `b` stands for is given for responses with that byte only. -/
theorem answerOfByte_eq_iff {y : Address} {b b' : Byte} (hb : b = 1 ∨ b = 2 ∨ b = 3) :
    answerOfByte y b' = answerOfByte y b ↔ b' = b := by
  unfold answerOfByte
  obtain rfl | rfl | rfl := hb
  all_goals split_ifs <;> simp_all

theorem interpretAnswer_eq_answerOfByte_iff {y : Address} {b : Byte} {f : CanFrame} (hb : b = 1 ∨ b = 2 ∨ b = 3) :
    interpretAnswer f y = answerOfByte y b ↔ AnswersFor y b f := by
  have hknown : answerOfByte y b ≠ .notForMe := by obtain rfl | rfl | rfl := hb <;> exact Answer.noConfusion
  simp only [interpretAnswer_eq_iff hknown, answerOfByte_eq_iff hb, exists_eq_left]

theorem answerOfByte_cases (y : Address) (b : Byte) :
    answerOfByte y b = .notForMe ∨ answerOfByte y b = .boardNumber y ∨ answerOfByte y b = .changeAcknowledged y
      ∨ answerOfByte y b = .bootloaderEntered := by
  unfold answerOfByte
  split_ifs <;> simp

theorem interpretAnswer_cases (f : CanFrame) (y : Address) :
    interpretAnswer f y = .notForMe ∨ interpretAnswer f y = .boardNumber y ∨ interpretAnswer f y = .changeAcknowledged y
      ∨ interpretAnswer f y = .bootloaderEntered := by
  by_cases hf : ∃ b, AnswersFor y b f
  · obtain ⟨b, hb⟩ := hf
    exact interpretAnswer_of_answersFor hb ▸ answerOfByte_cases y b
  · exact .inl (interpretAnswer_of_not_answersFor (not_exists.mp hf))

/-- Settles O42: the row answers `interpretAnswer f y`, and the bytes 1, 2 and 3 stand for its three answers. -/
theorem interpretReadsTheAnswer : Obligations.InterpretReadsTheAnswer := by
  unfold Obligations.InterpretReadsTheAnswer
  intro f y s
  refine ⟨interpretAnswer f y, exec_agInterpret f y s, ?boardNumber, ?changeAcknowledged, ?bootloaderEntered, interpretAnswer_cases f y⟩
  case boardNumber => exact interpretAnswer_eq_answerOfByte_iff (b := 1) (.inl rfl)
  case changeAcknowledged => exact interpretAnswer_eq_answerOfByte_iff (b := 2) (.inr (.inl rfl))
  case bootloaderEntered => exact interpretAnswer_eq_answerOfByte_iff (b := 3) (.inr (.inr rfl))

end Sys2Proof.Proofs.UpdateAgent
end

/-! PROOFS. The obligations of the encoding (spec 30_encoding.md): a frame row is the one instruction that its wire frame decodes to in
the row's context, and every decoded instruction is a row of its frame. Both directions go context by context. -/

namespace Sys2Proof.Proofs.Encoding

open Sys2Proof Sys2Proof.Machine

/-- The instruction is a well-formed row of this context and its bits are the frame. -/
def IsRowOf (c : Context) (w : WireFrame) (i : Instr) : Prop := i.wf = true ∧ i.context = some c ∧ encode i = some w

/-- The encoding of a well-formed row is a CAN frame (R13, R60). -/
theorem wf_of_encode (i : Instr) : Laws.EncodingIsFrame.Statement i := by
  cases i with
  | rxStandardFrame id p => exact Laws.EncodingIsFrame.rxStandardFrame id p
  | rxResponseDrop c h p => exact Laws.EncodingIsFrame.rxResponseDrop c h p
  | ping h p => exact Laws.EncodingIsFrame.ping h p
  | configStatus h p => exact Laws.EncodingIsFrame.configStatus h p
  | forAppBoardnumRequest h r => exact Laws.EncodingIsFrame.forAppBoardnumRequest h r
  | forAppBoardnumChange h r => exact Laws.EncodingIsFrame.forAppBoardnumChange h r
  | forAppGoBtldr h r => exact Laws.EncodingIsFrame.forAppGoBtldr h r
  | forAppNoHandler h p => exact Laws.EncodingIsFrame.forAppNoHandler h p
  | forBtldr h p => exact Laws.EncodingIsFrame.forBtldr h p
  | hook c h p => exact Laws.EncodingIsFrame.hook c h p
  | btldrAnswerData h r => exact Laws.EncodingIsFrame.btldrAnswerData h r
  | btldrAnswerEnd h r => exact Laws.EncodingIsFrame.btldrAnswerEnd h r
  | rxBlDiscard w => exact Laws.EncodingIsFrame.rxBlDiscard w
  | pingReply h u x y d => exact Laws.EncodingIsFrame.pingReply h u x y d
  | configStatusDescriptor h row => exact Laws.EncodingIsFrame.configStatusDescriptor h row
  | configStatusTerminator h x y => exact Laws.EncodingIsFrame.configStatusTerminator h x y
  | appAnswerBoardnumAnswer h a => exact Laws.EncodingIsFrame.appAnswerBoardnumAnswer h a
  | appAnswerBoardnumChange h a => exact Laws.EncodingIsFrame.appAnswerBoardnumChange h a
  | appAnswerGoBtldr h a => exact Laws.EncodingIsFrame.appAnswerGoBtldr h a
  | btldrAnswerStartData h => exact Laws.EncodingIsFrame.btldrAnswerStartData h
  | btldrAnswerMoreData h => exact Laws.EncodingIsFrame.btldrAnswerMoreData h
  | agentForAppRequest h r => exact Laws.EncodingIsFrame.agentForAppRequest h r
  | agentDataFrame h r => exact Laws.EncodingIsFrame.agentDataFrame h r
  | agentEndFrame r => exact Laws.EncodingIsFrame.agentEndFrame r
  | _ => exact fun _ _ h => nomatch h

/-! ## From the row to the instruction -/

/-- The router reads each of its rows from its encoding (R76, first table). -/
theorem decodeRouter_of_row {i : Instr} {w : WireFrame} (h : IsRowOf .router w i) : decodeRouter w = i := by
  obtain ⟨hwf, hrow, henc⟩ := h
  cases i <;> cases hrow <;> cases henc
  case rxStandardFrame => rfl
  all_goals
    simp only [mkFrame, decodeRouter_encoded]
  case forAppNoHandler h p =>
    simp only [Instr.wf, Bool.and_eq_true, bne_iff_ne] at hwf
    rcases p with _ | ⟨b, p⟩ <;> simp_all [decodeForApp]
  case hook c h p =>
    simp only [Instr.wf, Bool.and_eq_true, bne_iff_ne] at hwf
    simp_all
  all_goals simp [decodeForApp]

/-- The waiting receiver reads each of its rows from its encoding; a frame that does not match is the discard row (R76, second table). -/
theorem decodePoll_of_row {i : Instr} {w : WireFrame} (h : IsRowOf .poll w i) : decodePoll w = i := by
  obtain ⟨hwf, hrow, henc⟩ := h
  cases i <;> cases hrow <;> cases henc
  case rxBlDiscard =>
    simp only [Instr.wf, Bool.and_eq_true, Bool.not_eq_true'] at hwf
    rcases wireFrame_cases w with hext | ⟨c, r, h, p, rfl⟩
    · simp [decodePoll, hext]
    · have hno := mt (answersWait_encoded c r h p).mpr (by simp [hwf.2])
      rw [decodePoll_encoded]
      rcases p with _ | ⟨b, p⟩ <;> simp_all
  all_goals
    simp [mkFrame, decodePoll_encoded]

/-- Each outbound row of the block is read from its encoding (R66 to R72). -/
theorem decodeTransmit_of_row {i : Instr} {w : WireFrame} (h : IsRowOf .transmit w i) : decodeTransmit w = some i := by
  obtain ⟨hwf, hrow, henc⟩ := h
  cases i <;> cases hrow <;> cases henc
  case configStatusDescriptor h row =>
    simp only [Instr.wf, decide_eq_true_eq] at hwf
    rcases row with _ | ⟨_, _ | ⟨_, _ | ⟨_, row⟩⟩⟩
    all_goals simp at hwf
    simp [decodeTransmit, descriptorFrame, decodeFrame_of_encoded, hwf]
  all_goals
    simp [decodeTransmit, pingReplyFrame, terminatorFrame, appAnswerFrame, receiverFrame, UidBytes.toList, Address.toList,
      decodeFrame_of_encoded, append_extract_halves]

/-- Each row of the agent is read from its encoding (R73, R197). -/
theorem decodeAgent_of_row {i : Instr} {w : WireFrame} (h : IsRowOf .agentTransmit w i) : decodeAgent w = some i := by
  obtain ⟨-, hrow, henc⟩ := h
  cases i <;> cases hrow <;> cases henc
  case agentForAppRequest h r =>
    cases r <;> simp [decodeAgent, forAppRequestFrame, AppRequest.payload, Address.toList, decodeFrame_of_encoded]
  all_goals
    simp [decodeAgent, dataReplyFrame, endReplyFrame, decodeFrame_of_encoded]

theorem decode_of_row {c : Context} {i : Instr} {w : WireFrame} (h : IsRowOf c w i) : decode c w = .instr i := by
  have hwf : w.wf = true := wf_of_encode i h.1 w h.2.2
  have hlength : ¬ 8 < w.payload.length := Nat.not_lt.mpr (of_decide_eq_true hwf)
  cases c with
  | router => rw [decode_router_of_wf hwf, decodeRouter_of_row h]
  | poll => rw [decode_poll_of_wf hwf, decodePoll_of_row h]
  | transmit => simp only [decode, if_neg hlength, decodeTransmit_of_row h]
  | agentTransmit => simp only [decode, if_neg hlength, decodeAgent_of_row h]

/-- Settles O55: context by context the decoder reads the row back. -/
theorem decodeOfEncodeIsTheInstruction : Obligations.DecodeOfEncodeIsTheInstruction := by
  unfold Obligations.DecodeOfEncodeIsTheInstruction
  exact fun i c w hwf hrow henc => decode_of_row ⟨hwf, hrow, henc⟩

/-! ## From the instruction to the row -/

theorem decodeRouter_isRow {w : WireFrame} (hw : w.wf = true) : IsRowOf .router w (decodeRouter w) := by
  rcases wireFrame_cases w with hext | ⟨c, r, h, p, rfl⟩
  · obtain ⟨id, ext, p⟩ := w
    cases hext
    exact ⟨hw, rfl, rfl⟩
  · have hp : p.length ≤ 8 := of_decide_eq_true hw
    rw [decodeRouter_encoded]
    split
    case isTrue hr => subst hr; exact ⟨hw, rfl, rfl⟩
    case isFalse hr =>
    obtain rfl : r = false := by simpa using hr
    split_ifs with hping hconfig happ hbtldr
    case pos => subst hping; exact ⟨hw, rfl, rfl⟩
    case pos => subst hconfig; exact ⟨hw, rfl, rfl⟩
    case pos =>
      subst happ
      rcases p with _ | ⟨b, p⟩
      · exact ⟨rfl, rfl, rfl⟩
      · have hrest : p.length ≤ 7 := Nat.le_of_succ_le_succ hp
        simp only [decodeForApp]
        split_ifs with hrequest hchange hgo
        case pos => subst hrequest; exact ⟨decide_eq_true hrest, rfl, rfl⟩
        case pos => subst hchange; exact ⟨decide_eq_true hrest, rfl, rfl⟩
        case pos => subst hgo; exact ⟨decide_eq_true hrest, rfl, rfl⟩
        case neg =>
          have hother {x : Byte} (hx : b ≠ x) : (b :: p).head? ≠ some x := mt Option.some.inj hx
          refine ⟨?_, rfl, rfl⟩
          simp only [Instr.wf, Bool.and_eq_true, decide_eq_true_eq, bne_iff_ne]
          exact ⟨⟨⟨hp, hother hrequest⟩, hother hchange⟩, hother hgo⟩
    case pos => subst hbtldr; exact ⟨hw, rfl, rfl⟩
    case neg =>
      refine ⟨?_, rfl, rfl⟩
      simp only [Instr.wf, Bool.and_eq_true, decide_eq_true_eq, bne_iff_ne]
      exact ⟨⟨⟨⟨hp, hping⟩, hconfig⟩, happ⟩, hbtldr⟩

/-- A frame that does not match the wait is a discard row. -/
theorem rxBlDiscard_isRow {w : WireFrame} (hw : w.wf = true) (hno : w.answersWait = false) : IsRowOf .poll w (.rxBlDiscard w) :=
  ⟨by simp [Instr.wf, hw, hno], rfl, rfl⟩

theorem decodePoll_isRow {w : WireFrame} (hw : w.wf = true) : IsRowOf .poll w (decodePoll w) := by
  rcases wireFrame_cases w with hext | ⟨c, r, h, p, rfl⟩
  · have hdiscard : decodePoll w = .rxBlDiscard w := by simp [decodePoll, hext]
    exact hdiscard ▸ rxBlDiscard_isRow hw (answersWait_standard hext)
  · have hp : p.length ≤ 8 := of_decide_eq_true hw
    have hmatch := answersWait_encoded c r h p
    rw [decodePoll_encoded]
    split
    case isFalse hkind => exact rxBlDiscard_isRow hw (by simpa using mt hmatch.mp (fun hm => hkind ⟨hm.1, hm.2.1⟩))
    case isTrue hkind =>
    obtain ⟨rfl, rfl⟩ := hkind
    rcases p with _ | ⟨b, p⟩
    · exact rxBlDiscard_isRow hw (by simpa using hmatch)
    · have hrest : p.length ≤ 7 := Nat.le_of_succ_le_succ hp
      simp only
      split_ifs with hdata hend
      case pos => subst hdata; exact ⟨decide_eq_true hrest, rfl, rfl⟩
      case pos => subst hend; exact ⟨decide_eq_true hrest, rfl, rfl⟩
      case neg =>
        refine rxBlDiscard_isRow hw (Bool.eq_false_iff.mpr fun hyes => ?_)
        obtain ⟨-, -, hb | hb⟩ := hmatch.mp hyes
        · exact hdata (Option.some.inj hb)
        · exact hend (Option.some.inj hb)

/-- A device type is written high byte first (R67): both bytes are read back. -/
theorem pingReplyFrame_append (h : Hash) (u : UidBytes) (x y dh dl : Byte) :
    pingReplyFrame h u x y (dh ++ dl) = ⟨cmdPing, true, h, [u.b0, u.b1, u.b2, u.b3, x, y, dh, dl]⟩ := by
  have hhigh : (dh ++ dl : BitVec 16).extractLsb' 8 8 = dh := BitVec.extractLsb'_append_eq_left
  have hlow : (dh ++ dl : BitVec 16).extractLsb' 0 8 = dl := BitVec.extractLsb'_append_eq_right
  simp only [pingReplyFrame, hhigh, hlow]
  rfl

theorem decodeTransmit_isRow {w : WireFrame} {i : Instr} (hi : decodeTransmit w = some i) : IsRowOf .transmit w i := by
  rcases wireFrame_cases w with hext | ⟨c, r, h, p, rfl⟩
  · simp [decodeTransmit, hext] at hi
  · simp only [decodeTransmit, encodeFrame_payload, decodeFrame_of_encoded] at hi
    split at hi
    case isFalse => cases hi
    case isTrue hkind =>
    obtain ⟨-, rfl⟩ : _ ∧ r = true := hkind
    split_ifs at hi with hping hconfig happ hbtldr
    case pos =>
      subst hping
      split at hi
      · cases hi
        exact ⟨rfl, rfl, by simp only [encode, Instr.frame, Option.map_some, pingReplyFrame_append]⟩
      · cases hi
    case pos =>
      subst hconfig
      split at hi
      · cases hi
        exact ⟨rfl, rfl, rfl⟩
      · split at hi
        · cases hi
          exact ⟨decide_eq_true ‹_›, rfl, rfl⟩
        · cases hi
    case pos =>
      subst happ
      split at hi
      · split_ifs at hi with hb hb hb <;> subst hb <;> cases hi <;> exact ⟨rfl, rfl, rfl⟩
      · cases hi
    case pos =>
      subst hbtldr
      split at hi
      · split_ifs at hi with hb hb <;> subst hb <;> cases hi <;> exact ⟨rfl, rfl, rfl⟩
      · cases hi

theorem decodeAgent_isRow {w : WireFrame} (hw : w.wf = true) {i : Instr} (hi : decodeAgent w = some i) :
    IsRowOf .agentTransmit w i := by
  rcases wireFrame_cases w with hext | ⟨c, r, h, p, rfl⟩
  · simp [decodeAgent, hext] at hi
  · have hp : p.length ≤ 8 := of_decide_eq_true hw
    simp only [decodeAgent, encodeFrame_payload, decodeFrame_of_encoded] at hi
    split at hi
    case isFalse => cases hi
    case isTrue hkind =>
    obtain ⟨-, rfl⟩ : _ ∧ r = false := hkind
    split_ifs at hi with happ hbtldr
    case pos =>
      subst happ
      split at hi
      · split_ifs at hi with hb hb <;> subst hb <;> cases hi <;> exact ⟨rfl, rfl, rfl⟩
      · split_ifs at hi with hb
        subst hb
        cases hi
        exact ⟨rfl, rfl, rfl⟩
      · cases hi
    case pos =>
      subst hbtldr
      split at hi
      · cases hi
      · have hrest := decide_eq_true (Nat.le_of_succ_le_succ hp)
        split_ifs at hi with hb hb <;> subst hb <;> cases hi <;> exact ⟨hrest, rfl, rfl⟩

theorem isRow_of_decode {c : Context} {i : Instr} {w : WireFrame} (h : decode c w = .instr i) : IsRowOf c w i := by
  simp only [decode] at h
  split at h
  · cases h
  rename_i hlength
  have hw : w.wf = true := decide_eq_true (Nat.not_lt.mp hlength)
  cases c with
  | router => cases h; exact decodeRouter_isRow hw
  | poll => cases h; exact decodePoll_isRow hw
  | transmit =>
    cases hi : decodeTransmit w <;> simp only [hi] at h <;> cases h
    exact decodeTransmit_isRow hi
  | agentTransmit =>
    cases hi : decodeAgent w <;> simp only [hi] at h <;> cases h
    exact decodeAgent_isRow hw hi

/-- Settles O56: context by context, what the decoder answers is a row of the frame. -/
theorem encodeOfDecodeIsTheFrame : Obligations.EncodeOfDecodeIsTheFrame := by
  unfold Obligations.EncodeOfDecodeIsTheFrame
  exact fun i c w h => isRow_of_decode h

/-- Settles O57: each word is a row of its instruction, so it decodes to it. -/
theorem specWordsDecode : Obligations.SpecWordsDecode := by
  refine ⟨decode_of_row ?_, decode_of_row ?_, decode_of_row ?_, decode_of_row ?_, decode_of_row ?_, decode_of_row ?_⟩
  all_goals exact ⟨rfl, rfl, rfl⟩

end Sys2Proof.Proofs.Encoding

/-! PROOFS. The obligations of single rows of the opcode table: a row's lemma says which operation it runs where its rule enables it, and
the operation's lemmas say what the operation does. -/

namespace Sys2Proof.Proofs.Rows

open Sys2Proof Sys2Proof.Machine

/-! ## IDENT_LOAD (41_identity.md) -/

/-- Settles O8: the row is `identLoad`, which reads NV at the two offsets; the generator's rows answer on every operand. -/
theorem identLoadCachesPersistedAddress : Obligations.IdentLoadCachesPersistedAddress := by
  unfold Obligations.IdentLoadCachesPersistedAddress
  intro base s
  exact ⟨s.identLoad base, rfl, rfl, readNv_eq s.mem _, readNv_eq s.mem _, IdentityGenerator.exec_genUid _ _ s,
    IdentityGenerator.exec_serializeUid _ s, IdentityGenerator.exec_genHash _ s,
    fun a => ⟨genUid base a, IdentityGenerator.exec_genUid base a s⟩⟩

/-! ## The router's rows in Application mode (42_command_router.md) -/

section Router

variable {s : State} (hmode : s.mode = .application)
include hmode

/-- A row of a logical frame in Application mode: the frame goes to `rx`, then its handler runs (R110). -/
theorem onRequest_application (f : CanFrame) (handler : State → State) : s.onRequest f handler = .next (handler (s.latchRx f)) :=
  onRequest_router (reception_application hmode) f handler

/-- A `FOR_APP` row whose address is another one, or is missing: the label, and no handler (R118, R113). -/
theorem onRequest_forApp_mismatch {h : Hash} {p : List Byte} (handler : State → State)
    (hother : p.length < 3 ∨ (p.drop 1).take 2 ≠ [s.ident.address.hi, s.ident.address.lo]) :
    s.onRequest ⟨cmdForApp, false, h, p⟩ (fun s => s.ifAddressed handler)
      = .next ((s.latchRx ⟨cmdForApp, false, h, p⟩).raise .addressMismatch) := by
  rw [onRequest_application hmode]
  exact congrArg Host.Outcome.next (ifAddressed_mismatch handler hother)

/-- A `FOR_APP` row with this node's address: its handler (R118). -/
theorem onRequest_forApp_match {h : Hash} {p : List Byte} (handler : State → State)
    (haddress : (p.drop 1).take 2 = [s.ident.address.hi, s.ident.address.lo]) :
    s.onRequest ⟨cmdForApp, false, h, p⟩ (fun s => s.ifAddressed handler) =
      .next (handler (s.latchRx ⟨cmdForApp, false, h, p⟩)) := by
  rw [onRequest_application hmode]
  exact congrArg Host.Outcome.next (ifAddressed_match handler haddress)

/-- A row of the wait met by the router is routed like any other frame (R76). -/
theorem onPoll_application (w : WireFrame) (action : State → State) : s.onPoll w action = .next (s.routeFrame w) :=
  onPoll_router (reception_application hmode) w action

/-- A `BTLDR_ANSWER` request is no command of the router's: it goes to the hook (R128). -/
theorem onPoll_btldrAnswer_hook (h : Hash) (p : List Byte) (action : State → State) :
    s.onPoll (encodeFrame ⟨cmdBtldrAnswer, false, h, p⟩) action = .next (s.latchRx ⟨cmdBtldrAnswer, false, h, p⟩).pulseHook := by
  rw [onPoll_application hmode, routeFrame_encoded]
  rfl

end Router

/-- Settles O9: the handler of a PING sends one reply; a response is latched and dropped. -/
theorem pingIsAlwaysAnswered : Obligations.PingIsAlwaysAnswered := by
  unfold Obligations.PingIsAlwaysAnswered
  intro h p s hmode
  constructor
  · exact (onRequest_application hmode _ _).trans (congrArg Host.Outcome.next (send_eq_withSent _ _ _ _ _))
  · exact onRequest_application hmode ⟨cmdPing, true, h, p⟩ fun s => s

/-- The rows of `FOR_APP` requests are the four that validate the address. -/
theorem exec_forAppRow {i : Instr} {h : Hash} {p : List Byte} (hwf : i.wf = true) (hrow : i.context = some .router)
    (hframe : i.frame = some ⟨cmdForApp, false, h, p⟩) :
    ∃ handler : State → State, ∀ s, exec i s = s.onRequest ⟨cmdForApp, false, h, p⟩ (fun s => s.ifAddressed handler) := by
  have hcommand : ∀ f, i.frame = some f → f.command = cmdForApp := fun f hf => by rw [Option.some.inj (hf.symm.trans hframe)]
  cases i <;> cases hrow
  case rxStandardFrame => cases hframe
  case rxResponseDrop => cases hframe
  case ping => exact absurd (show cmdPing = cmdForApp from hcommand _ rfl) (by decide)
  case configStatus => exact absurd (show cmdConfigStatus = cmdForApp from hcommand _ rfl) (by decide)
  case forBtldr => exact absurd (show cmdForBtldr = cmdForApp from hcommand _ rfl) (by decide)
  case hook c h' p' =>
    obtain rfl : c = cmdForApp := hcommand _ rfl
    simp [Instr.wf] at hwf
  all_goals
    cases hframe
    exact ⟨_, fun _ => rfl⟩

/-- Settles O11: each of the four rows validates the address before its handler. -/
theorem forAppFiltersOtherAddresses : Obligations.ForAppFiltersOtherAddresses := by
  unfold Obligations.ForAppFiltersOtherAddresses
  intro i h p s hmode hwf hrow hframe hother
  obtain ⟨handler, hexec⟩ := exec_forAppRow hwf hrow hframe
  rw [hexec, onRequest_forApp_mismatch hmode handler hother]
  rfl

/-- Settles O12: the address matches and there is no handler. -/
theorem unhandledSubcommandIsDropped : Obligations.UnhandledSubcommandIsDropped := by
  unfold Obligations.UnhandledSubcommandIsDropped
  intro h p s hmode _ haddress
  exact onRequest_forApp_match hmode _ haddress

/-- Settles O13: the address matches and the handler sends one reply. -/
theorem boardnumRequestReportsAddress : Obligations.BoardnumRequestReportsAddress := by
  unfold Obligations.BoardnumRequestReportsAddress
  intro h r s hmode haddress
  exact (onRequest_forApp_match hmode (p := 0 :: r) _ haddress).trans (congrArg Host.Outcome.next (send_eq_withSent _ _ _ _ _))

/-! ### BOARDNUM_CHANGE -/

/-- R70: a payload of fewer than five bytes has no new address. -/
theorem newAddressOperand_of_short {b : Byte} {r : List Byte} (h : r.length < 4) : newAddressOperand (b :: r) = none := by
  match r with
  | [] | [_] | [_, _] | [_, _, _] => rfl

/-- R70: the new address stands after the old one. -/
theorem newAddressOperand_of_bytes {b z0 z1 : Byte} {r : List Byte} (h : (r.drop 2).take 2 = [z0, z1]) :
    newAddressOperand (b :: r) = some ⟨z0, z1⟩ := by
  match r with
  | [] | [_] | [_, _] | [_, _, _] => simp at h
  | _ :: _ :: _ :: _ :: _ =>
    obtain ⟨rfl, rfl⟩ : _ = z0 ∧ _ = z1 := by simpa using h
    rfl

theorem bothDigits_iff_range (z0 z1 : Byte) :
    bothDigits ⟨z0, z1⟩ = true ↔ 0x30 ≤ z0.toNat ∧ z0.toNat ≤ 0x39 ∧ 0x30 ≤ z1.toNat ∧ z1.toNat ≤ 0x39 := by
  rw [IdentityGenerator.bothDigits_iff, IdentityGenerator.isDigit_iff, IdentityGenerator.isDigit_iff, and_assoc]

theorem handleBoardnumChange_of_short {s : State} (h : newAddressOperand s.rx.payload = none) :
    s.handleBoardnumChange = s.raise .addressMismatch := by
  simp only [State.handleBoardnumChange, h]

theorem handleBoardnumChange_of_nonDigits {s : State} {a : Address} (h : newAddressOperand s.rx.payload = some a)
    (hdigits : bothDigits a ≠ true) : s.handleBoardnumChange = s := by
  simp only [State.handleBoardnumChange, h, if_neg hdigits]

theorem roleBaseUid_application {s : State} (h : s.mode = .application) : s.roleBaseUid = s.params.baseUidApp := by
  simp only [State.roleBaseUid, h]

/-- The two address bytes have different places (R7). -/
theorem nvAddrOffsets_ne {p : Params} (h : p.wf = true) : p.nvAddrHiOffset ≠ p.nvAddrLoOffset := by
  simp only [Params.wf, Bool.and_eq_true, bne_iff_ne] at h
  tauto

section Persist

variable {s : State} (hparams : s.params.wf = true) (hmem : s.mem.wf = true) (a : Address)

include hparams hmem in
/-- The address persisted is the one read back (R42, R122). -/
theorem persistedAddress_persistAddress : (s.persistAddress a).persistedAddress = a := by
  simp only [State.persistedAddress, persistAddress_mem, persistAddress_params]
  rw [readNv_write_other _ (.inr (nvAddrOffsets_ne hparams)), readNv_write_same hmem,
    readNv_write_same (memory_wf_write hmem _ _ _)]

include hparams hmem in
/-- The identity recomputed after an address is persisted is that address's (R122). -/
theorem identLoad_persistAddress (base : Uid) :
    (s.persistAddress a).identLoad base = { s with
      mem := (s.persistAddress a).mem
      ident := ⟨a, genUid base a, serializeUid (genUid base a), genHash (genUid base a)⟩ } := by
  simp only [State.identLoad, persistedAddress_persistAddress hparams hmem]
  rfl

/-- Persisting an address writes two bytes of NV (R122). -/
theorem read_persistAddress_other {sp : Space} {x : Nat}
    (h : sp = .flash ∨ (x ≠ s.params.nvAddrHiOffset ∧ x ≠ s.params.nvAddrLoOffset)) :
    (s.persistAddress a).mem.read sp x = s.mem.read sp x := by
  have hspace : sp = .flash → sp ≠ .nv := by rintro rfl; decide
  rw [persistAddress_mem, read_write_other _ (h.imp hspace And.right), read_write_other _ (h.imp hspace And.left)]

end Persist

/-- R122: the reply with the old address under the old hash, the two bytes, and the identity of the new address. -/
theorem handleBoardnumChange_of_digits {s : State} {a : Address} (hmode : s.mode = .application) (hparams : s.params.wf = true)
    (hmem : s.mem.wf = true) (h : newAddressOperand s.rx.payload = some a) (hdigits : bothDigits a = true) :
    s.handleBoardnumChange = { s.withSent 0x053 0x00A7#13 s.ident.hash [2, s.ident.address.hi, s.ident.address.lo] with
      mem := (s.persistAddress a).mem
      ident := ⟨a, genUid s.params.baseUidApp a, serializeUid (genUid s.params.baseUidApp a),
        genHash (genUid s.params.baseUidApp a)⟩ } := by
  simp only [State.handleBoardnumChange, h, if_pos hdigits, roleBaseUid_application hmode, appAnswerFrame, send_eq_withSent]
  exact identLoad_persistAddress (s := s.withSent _ _ _ _) hparams hmem a _

/-- Settles O14: after the address validation the three clauses are the three cases of the handler. -/
theorem boardnumChangeRepliesThenPersists : Obligations.BoardnumChangeRepliesThenPersists := by
  unfold Obligations.BoardnumChangeRepliesThenPersists
  intro h r s hmode hparams hmem haddress
  have hexec : exec (.forAppBoardnumChange h r) s = .next (s.latchRx ⟨cmdForApp, false, h, 2 :: r⟩).handleBoardnumChange :=
    onRequest_forApp_match hmode _ haddress
  refine ⟨fun hshort => ?_, fun z0 z1 hnew => ⟨fun hdigits => ?_, fun hdigits => ?_⟩⟩
  · rw [hexec, handleBoardnumChange_of_short (newAddressOperand_of_short hshort)]
    rfl
  · rw [hexec, handleBoardnumChange_of_nonDigits (newAddressOperand_of_bytes hnew) (mt (bothDigits_iff_range z0 z1).mp hdigits)]
    rfl
  · rw [hexec, handleBoardnumChange_of_digits (s := s.latchRx ⟨cmdForApp, false, h, 2 :: r⟩) hmode hparams hmem
      (newAddressOperand_of_bytes hnew)
      ((bothDigits_iff_range z0 z1).mpr hdigits)]
    have hread : (s.persistAddress ⟨z0, z1⟩).persistedAddress = ⟨z0, z1⟩ := persistedAddress_persistAddress hparams hmem _
    exact ⟨(s.persistAddress ⟨z0, z1⟩).mem, rfl, (readNv_eq _ _).trans (congrArg (some ·.hi) hread),
      (readNv_eq _ _).trans (congrArg (some ·.lo) hread), fun sp x hx => read_persistAddress_other ⟨z0, z1⟩ hx⟩

/-! ### GO_BTLDR -/

/-- The pulse and the setup flag (R124): the flag is the only byte written. -/
theorem markSetupNotDone_pulseDetach (s : State) :
    s.pulseDetach.markSetupNotDone = { s.pulseDetach with mem := s.markSetupNotDone.mem } := by
  by_cases hflag : s.params.hasSetupFlag = true
  all_goals
    simp only [State.markSetupNotDone, pulseDetach_params, hflag]
    rfl

theorem read_markSetupNotDone_flag {s : State} (hmem : s.mem.wf = true) (hflag : s.params.hasSetupFlag = true) :
    s.markSetupNotDone.mem.read .nv s.params.nvSetupFlagOffset = some s.params.setupNotDoneValue := by
  rw [State.markSetupNotDone, if_pos hflag, writeNv_mem]
  exact read_write_same hmem _ _ _

theorem read_markSetupNotDone_other {s : State} {sp : Space} {a : Nat}
    (h : s.params.hasSetupFlag = false ∨ sp = .flash ∨ a ≠ s.params.nvSetupFlagOffset) :
    s.markSetupNotDone.mem.read sp a = s.mem.read sp a := by
  simp only [State.markSetupNotDone]
  split
  case isFalse => rfl
  case isTrue hflag =>
    refine read_write_other _ ((h.resolve_left (by simp [hflag])).imp_left ?_) _
    rintro rfl
    decide

/-- R124: the pulse, the flag, the reply and `BL_ENTER`. -/
theorem handleGoBtldr_eq (s : State) :
    s.handleGoBtldr = { s.pulseDetach.withSent 0x053 0x00A7#13 s.ident.hash [3, s.ident.address.hi, s.ident.address.lo] with
      mem := s.markSetupNotDone.mem }.enterBootloader := by
  simp only [State.handleGoBtldr, markSetupNotDone_pulseDetach, appAnswerFrame, send_eq_withSent]
  rfl

/-- Settles O15: the handler is the pulse, the flag, the reply and `BL_ENTER`, in this order. -/
theorem goBtldrRepliesThenEnters : Obligations.GoBtldrRepliesThenEnters := by
  unfold Obligations.GoBtldrRepliesThenEnters
  intro h r s hmode hmem haddress
  have hexec : exec (.forAppGoBtldr h r) s = .next (s.latchRx ⟨cmdForApp, false, h, 3 :: r⟩).handleGoBtldr :=
    onRequest_forApp_match hmode _ haddress
  refine ⟨(s.latchRx ⟨cmdForApp, false, h, 3 :: r⟩).markSetupNotDone.mem, _, hexec, ?_,
    read_markSetupNotDone_flag (s := s.latchRx ⟨cmdForApp, false, h, 3 :: r⟩) hmem,
    fun sp a => read_markSetupNotDone_other (s := s.latchRx ⟨cmdForApp, false, h, 3 :: r⟩)⟩
  rw [handleGoBtldr_eq]
  rfl

/-! ### Other commands -/

/-- Settles O16: the router's last case; the two rows of the wait are `BTLDR_ANSWER` requests to it. -/
theorem otherRequestsGoToTheHook : Obligations.OtherRequestsGoToTheHook := by
  unfold Obligations.OtherRequestsGoToTheHook
  intro h p s hmode
  exact ⟨fun c _ _ _ => onRequest_application hmode ⟨c, false, h, p⟩ State.handleHook,
    onRequest_application hmode ⟨cmdForBtldr, false, h, p⟩ State.handleHook,
    onPoll_btldrAnswer_hook hmode h (5 :: p) fun s => (s.latchRx ⟨cmdBtldrAnswer, false, h, 5 :: p⟩).loadChunk,
    onPoll_btldrAnswer_hook hmode h (6 :: p) fun s => (s.latchRx ⟨cmdBtldrAnswer, false, h, 6 :: p⟩).endOfData⟩

/-- Settles O17: a standard frame is dropped by the router and by the waiting receiver, a response by the router. -/
theorem standardFramesAndResponsesAreDropped : Obligations.StandardFramesAndResponsesAreDropped := by
  unfold Obligations.StandardFramesAndResponsesAreDropped
  intro id c h p s
  refine ⟨fun hopen => ?_, fun hmode => onRequest_application hmode ⟨c, true, h, p⟩ fun s => s⟩
  cases hr : s.reception with
  | router => exact onRouter_router hr ⟨id, false, p⟩ fun s => s
  | poll =>
    rw [← pollFrame_standard s (w := ⟨id, false, p⟩) rfl]
    exact onRouter_poll hr ⟨id, false, p⟩ fun s => s
  | closed => exact absurd hr hopen

/-! ## Who takes the frame (30_encoding.md section 5, 44_update_receiver.md section 1) -/

/-- Every row of the wait is its action behind `onPoll`, on the row's own wire frame (R76). -/
theorem exec_pollRow {i : Instr} {w : WireFrame} (hrow : i.context = some .poll) (henc : encode i = some w) :
    ∃ action : State → State, ∀ s, exec i s = s.onPoll w action := by
  cases i
  all_goals cases hrow
  all_goals
    cases henc
    exact ⟨_, fun _ => rfl⟩

/-- Settles O18: a row met in its own context is its decoding; the other context's row is routed or polled, which is what its decoding
there does; nobody takes frames while reception is closed. -/
theorem frameMeaningFollowsReception : Obligations.FrameMeaningFollowsReception := by
  unfold Obligations.FrameMeaningFollowsReception
  intro i w s hwf henc hcontext
  rcases hcontext with hrow | hrow
  · obtain ⟨handler, hexec⟩ := UpdateReceiver.exec_routerRow hrow henc
    refine ⟨fun _ => ?_, fun hr => ?_, fun hr => ?_⟩
    · rw [Encoding.decodeRouter_of_row ⟨hwf, hrow, henc⟩]
    · rw [hexec, onRouter_poll hr, exec_decodePoll w hr]
    · rw [hexec, onRouter_closed hr]
      rfl
  · obtain ⟨action, hexec⟩ := exec_pollRow hrow henc
    refine ⟨fun hr => ?_, fun _ => ?_, fun hr => ?_⟩
    · rw [hexec, onPoll_router hr, exec_decodeRouter w hr]
    · rw [Encoding.decodePoll_of_row ⟨hwf, hrow, henc⟩]
    · rw [hexec, onPoll_closed hr]
      rfl

section Receive

variable {s : State} {w : WireFrame} {rest : List WireFrame} (hq : s.rxQueue = w :: rest)
include hq

/-- `RX_DISPATCH` takes the oldest frame and routes it (R110). -/
theorem exec_rxDispatch (hmode : s.mode = .application) :
    exec .rxDispatch s = .next (({ s with rxQueue := rest } : State).routeFrame w) := by
  have henabled : s.rxDispatchEnabled = true := by simp [State.rxDispatchEnabled, hmode, hq]
  simp only [exec, execRxDispatch, hq]
  exact (whenEnabled_next (s := s)).mpr ⟨henabled, rfl⟩

/-- `BL_POLL` takes the oldest frame and polls it (R158). -/
theorem exec_blPoll (hr : s.reception = .poll) :
    exec .blPoll s = .next (({ s with rxQueue := rest } : State).pollFrame w) := by
  obtain ⟨hmode, hphase, hwaiting⟩ := (reception_poll_iff s).mp hr
  have henabled : s.blPollEnabled = true := by simp [State.blPollEnabled, State.inPhase, hmode, hphase, hwaiting, hq]
  simp only [exec, execBlPoll, hq]
  exact (whenEnabled_next (s := s)).mpr ⟨henabled, rfl⟩

end Receive

/-- Settles O19: routing and polling do what the decoded instruction does. -/
theorem receiveStepsRunTheDecodedFrame : Obligations.ReceiveStepsRunTheDecodedFrame := by
  unfold Obligations.ReceiveStepsRunTheDecodedFrame
  intro w rest s hq hw
  exact ⟨fun hr => ⟨decodeRouter w, _, decode_router_of_wf hw, exec_rxDispatch hq ((reception_router_iff s).mp hr),
      exec_decodeRouter (s := { s with rxQueue := rest }) w hr⟩,
    fun hr => ⟨decodePoll w, _, decode_poll_of_wf hw, exec_blPoll hq hr,
      exec_decodePoll (s := { s with rxQueue := rest }) w hr⟩⟩

/-! ## CFG_EMIT_STEP (43_config_stream.md) -/

/-- Settles O21: the two cases of the row on an index with a table. -/
theorem emitStepSendsDescriptorOrTerminator : Obligations.EmitStepSendsDescriptorOrTerminator := by
  unfold Obligations.EmitStepSendsDescriptorOrTerminator
  intro s table hmode hactive htable
  rw [ConfigStream.exec_cfgEmitStep hmode hactive]
  exact ⟨fun row hrow => congrArg Host.Outcome.next (ConfigStream.emitConfig_of_row htable hrow),
    fun hend => congrArg Host.Outcome.next (ConfigStream.emitConfig_of_end htable hend)⟩

/-! ## The receiver's rows (44_update_receiver.md) -/

/-- Settles O23: the row is `enterBootloader`. -/
theorem entryCreatesFreshSession : Obligations.EntryCreatesFreshSession := by
  unfold Obligations.EntryCreatesFreshSession
  exact fun s => ⟨s.enterBootloader, s.identLoad s.params.baseUidBl, rfl, rfl, rfl⟩

/-- A step row where its rule enables it is its operation. -/
theorem whenEnabled_of_enabled {s t : State} {b : Bool} (h : b = true) : s.whenEnabled b t = .next t :=
  whenEnabled_next.mpr ⟨h, rfl⟩

/-- A step row where its rule does not enable it is refused (log 16). -/
theorem whenEnabled_of_disabled {s t : State} {b : Bool} (h : b = false) : s.whenEnabled b t = .refused .notEnabled := by
  rw [h]
  rfl

section Enabled

variable {s : State} (hmode : s.mode = .bootloader)
include hmode

theorem exec_blAnnounce (hphase : s.phase = .awaitingStart) : exec .blAnnounce s = .next s.announce :=
  whenEnabled_of_enabled (s := s) (by simp [State.blAnnounceEnabled, State.inPhase, hmode, hphase])

theorem exec_blHandoff (hphase : s.phase = .handoffToApplication) : exec .blHandoff s = .next s.handOff :=
  whenEnabled_of_enabled (s := s) (by simp [State.blHandoffEnabled, State.inPhase, hmode, hphase])

variable (hphase : s.phase = .streaming)
include hphase

theorem exec_blRequest (hwaiting : s.waiting = false) (hchunk : s.chunkExhausted = true) : exec .blRequest s = .next s.requestChunk :=
  whenEnabled_of_enabled (s := s) (by simp [State.blRequestEnabled, State.inPhase, hmode, hphase, hwaiting, hchunk])

theorem exec_blPull (hwaiting : s.waiting = false) (hchunk : s.chunkExhausted = false) : exec .blPull s = .next s.pullByte :=
  whenEnabled_of_enabled (s := s) (by simp [State.blPullEnabled, State.inPhase, hmode, hphase, hwaiting, hchunk])

theorem exec_blTimeout (hen : s.params.timeoutEn = true) (hwaiting : s.waiting = true) (hexpired : s.env.timeoutExpired = true) :
    exec .blTimeout s = .next s.abandonTransfer :=
  whenEnabled_of_enabled (s := s) (by simp [State.blTimeoutEnabled, State.inPhase, hmode, hphase, hwaiting, hen, hexpired])

end Enabled

/-- Settles O24: the row sends one frame and sets the phase. -/
theorem announceSendsStartData : Obligations.AnnounceSendsStartData := by
  unfold Obligations.AnnounceSendsStartData
  intro s hmode hphase
  rw [exec_blAnnounce hmode hphase, State.announce, receiverFrame, send_eq_withSent]
  rfl

/-- Settles O25: the row sends one frame and starts the wait. -/
theorem requestSendsMoreData : Obligations.RequestSendsMoreData := by
  unfold Obligations.RequestSendsMoreData
  intro s hmode hphase hwaiting hchunk
  rw [exec_blRequest hmode hphase hwaiting (decide_eq_true hchunk), State.requestChunk, receiverFrame, send_eq_withSent]
  rfl

/-- Settles O26: the row in the wait is `LOAD_CHUNK` on the latched frame, which lays the bytes after byte 0 over the chunk. -/
theorem dataReplyLoadsTheChunk : Obligations.DataReplyLoadsTheChunk := by
  unfold Obligations.DataReplyLoadsTheChunk
  intro h r s hr hchunk
  refine ⟨fun hpoll => onPoll_poll hpoll _ fun s => (s.latchRx ⟨cmdBtldrAnswer, false, h, 5 :: r⟩).loadChunk,
    fun hrx => ⟨s.loadChunk, rfl, ?state, ?length, ?bytes⟩⟩
  case state =>
    have hlimit : ((s.rx.payload.length : Int) - 2) = (r.length : Int) - 1 := by
      rw [hrx, List.length_cons]
      omega
    simp only [State.loadChunk, hlimit]
  case length => exact (overlay_length _ _).trans hchunk
  case bytes =>
    intro j _
    simp only [State.loadChunk, hrx, List.drop_succ_cons, List.drop_zero]
    exact overlay_get r _ (hchunk ▸ hr) j

/-- Settles O29: the chunk has a next byte, and the page is committed if this byte fills it. -/
theorem pullAppendsOneByte : Obligations.PullAppendsOneByte := by
  unfold Obligations.PullAppendsOneByte
  intro s hmode hphase hwaiting hcursor hlegal
  have hchunk : s.chunkExhausted = false := decide_eq_false (not_lt.mpr hcursor)
  obtain ⟨b, hget, hbyte, -⟩ := chunkLeft_next hlegal hchunk
  refine ⟨b, hget, ?_⟩
  rw [exec_blPull hmode hphase hwaiting hchunk]
  simp only [State.pullByte, hbyte]
  exact ⟨fun hroom => congrArg Host.Outcome.next (if_neg hroom), fun hfull => ⟨_, congrArg Host.Outcome.next (if_pos hfull), rfl⟩⟩

/-- Settles O30: the row is enabled by the parameter, the wait and the timer's level. -/
theorem timeoutAbandonsTheTransfer : Obligations.TimeoutAbandonsTheTransfer := by
  unfold Obligations.TimeoutAbandonsTheTransfer
  intro s
  exact ⟨fun hen hmode hphase hwaiting hexpired => exec_blTimeout hmode hphase hen hwaiting hexpired,
    fun hen => whenEnabled_of_disabled (s := s) (by simp [State.blTimeoutEnabled, hen])⟩

/-- Settles O32: the row is `handOff`. -/
theorem handoffStartsTheApplication : Obligations.HandoffStartsTheApplication := by
  unfold Obligations.HandoffStartsTheApplication
  exact fun s hmode hphase => ⟨s.handOff, s.identLoad s.params.baseUidApp, exec_blHandoff hmode hphase, rfl, rfl⟩

/-! ## PAGE_RANGE_STOP (45_flash_pager.md) -/

/-- R186: beyond the last page a commit and `PAGE_RANGE_STOP` are the same stop. -/
theorem exec_beyondTheLastPage {s : State} (h : s.params.numPages ≤ s.session.pageIndex) :
    exec .pageCommit s = .next s.stopAtPageRange ∧ exec .pageRangeStop s = .next s.stopAtPageRange :=
  ⟨congrArg Host.Outcome.next (if_pos h), whenEnabled_of_enabled (s := s) (decide_eq_true h)⟩

/-- Settles O35: what the stop does to the page depends on whether it is full. -/
theorem commitBeyondTheLastPageStops : Obligations.CommitBeyondTheLastPageStops := by
  unfold Obligations.CommitBeyondTheLastPageStops
  intro s stopped emptied
  refine ⟨fun hbeyond hroom => ?_, fun hbeyond hfull => ?_, fun hpage => ?_⟩
  · have hstop : s.stopAtPageRange = stopped s.session := by
      simp only [State.stopAtPageRange, if_pos hroom]
      rfl
    exact hstop ▸ exec_beyondTheLastPage hbeyond
  · have hstop : s.stopAtPageRange = stopped emptied := by
      simp only [State.stopAtPageRange, if_neg (Nat.not_lt.mpr hfull)]
      rfl
    exact hstop ▸ exec_beyondTheLastPage hbeyond
  · exact whenEnabled_of_disabled (s := s) (decide_eq_false (Nat.not_le.mpr hpage))

/-! ## Outbound rows (30_encoding.md section 4) -/

/-- Settles O36: every outbound row is one `Send`. -/
theorem outboundRowsSendTheirFrame : Obligations.OutboundRowsSendTheirFrame := by
  unfold Obligations.OutboundRowsSendTheirFrame
  intro h u a x y d row s
  have hsend (c : Command) (p : List Byte) :
      (.next (s.send ⟨c, true, h, p⟩) : Host.Outcome State Fault Refusal) = .next (s.withSent c (c ++ BitVec.ofBool true) h p) :=
    congrArg Host.Outcome.next (send_eq_withSent s c true h p)
  exact ⟨hsend _ _, hsend _ _, hsend _ _, hsend _ _, hsend _ _, hsend _ _, hsend _ _, hsend _ _⟩

/-! ## The agent's rows (46_update_agent.md) -/

/-- The agent's frames are requests, on the bus as the opcode table writes them. -/
theorem agentSend_eq (s : State) (c : Command) (h : Hash) (p : List Byte) :
    s.agentSend ⟨c, false, h, p⟩ = { s with
      agent := { s.agent with trace := s.agent.trace ++ [wire (c ++ BitVec.ofBool false) h p] }
      rxQueue := s.rxQueue ++ [wire (c ++ BitVec.ofBool false) h p] } := by
  rw [State.agentSend, encodeFrame_eq_wire]

theorem exec_agStart {s : State} (hidle : s.agent.phase = .agIdle) (hreceives : s.agentReceives subStartData = true) :
    exec .agStart s = .next s.startServing :=
  whenEnabled_of_enabled (s := s) (Bool.and_eq_true_iff.mpr ⟨decide_eq_true hidle, hreceives⟩)

theorem exec_agServe {s : State} (hserving : s.agent.phase = .agServing) (hreceives : s.agentReceives subMoreData = true) :
    exec .agServe s = .next s.serveRequest :=
  whenEnabled_of_enabled (s := s) (Bool.and_eq_true_iff.mpr ⟨decide_eq_true hserving, hreceives⟩)

/-- Settles O37: the announcement enables the row, which consumes it. -/
theorem agentStartsOnAnnouncement : Obligations.AgentStartsOnAnnouncement := by
  unfold Obligations.AgentStartsOnAnnouncement
  intro h p rest s hidle hinbox
  rw [exec_agStart hidle ((agentReceives_receiver hinbox _).trans rfl), State.startServing, State.agentTakes, hinbox]
  rfl

/-- R193, while there are bytes: the next chunk, no longer than what is left. -/
theorem nextChunk_eq (s : State) :
    s.nextChunk = (s.agent.image.drop s.agent.pos).take (min s.params.agentChunk (s.agent.image.length - s.agent.pos)) := by
  rw [State.nextChunk, ← List.length_drop, List.take_eq_take_min]

theorem dataFrameRest_eq (p : Params) (d : List Byte) : dataFrameRest p d = d ++ if p.chunkCursorStart = 1 then [0x00] else [] := by
  simp only [dataFrameRest]
  split
  · rfl
  · exact (List.append_nil d).symm

/-- R194's table: byte 0, the data, and the trailing byte where the cursor starts at 1. -/
theorem dataFrameOf_eq (p : Params) (h : Hash) (d : List Byte) :
    dataFrameOf p h d = ⟨cmdBtldrAnswer, false, h, 5 :: d ++ if p.chunkCursorStart = 1 then [0x00] else []⟩ := by
  rw [dataFrameOf, dataFrameRest_eq]
  rfl

/-- R193 while there are bytes: the request is consumed and the next chunk sent. -/
theorem serveRequest_of_bytes {s : State} (h : s.agent.pos < s.agent.image.length) :
    s.serveRequest = { s.agentTakes.agentSend (dataFrameOf s.params s.agent.hash s.nextChunk) with
      agent := { (s.agentTakes.agentSend (dataFrameOf s.params s.agent.hash s.nextChunk)).agent with
        pos := s.agent.pos + s.nextChunk.length } } :=
  if_pos h

/-- R193 with no bytes left: the request is consumed and the end sent. -/
theorem serveRequest_of_end {s : State} (h : s.agent.image.length ≤ s.agent.pos) :
    s.serveRequest = { s.agentTakes.agentSend (endReplyFrame s.agent.hash []) with
      agent := { (s.agentTakes.agentSend (endReplyFrame s.agent.hash [])).agent with phase := .agDone } } :=
  if_neg (Nat.not_lt.mpr h)

/-- Settles O38: the request enables the row, which sends the chunk or the end by the agent's position. -/
theorem agentAnswersOneFramePerRequest : Obligations.AgentAnswersOneFramePerRequest := by
  unfold Obligations.AgentAnswersOneFramePerRequest
  intro h p rest s hserving hinbox
  rw [exec_agServe hserving ((agentReceives_receiver hinbox _).trans rfl)]
  have hrest : s.agent.inbox.drop 1 = rest := by rw [hinbox, List.drop_one, List.tail_cons]
  refine ⟨fun hbytes => ?_, fun hend => ?_⟩
  · intro n f
    have hlength : s.nextChunk.length = n := by simp [State.nextChunk, n]
    rw [serveRequest_of_bytes hbytes, hlength, dataFrameOf_eq, nextChunk_eq, agentSend_eq, State.agentTakes, hrest]
    rfl
  · intro f
    rw [serveRequest_of_end hend, endReplyFrame, agentSend_eq, State.agentTakes, hrest]
    rfl

/-- Settles O39: every row of the agent is one send of its frame. -/
theorem agentFramesReachTheNode : Obligations.AgentFramesReachTheNode := by
  unfold Obligations.AgentFramesReachTheNode
  intro h y z r s sent
  have hsend (c : Command) (p : List Byte) : (.next (s.agentSend ⟨c, false, h, p⟩) : Host.Outcome State Fault Refusal)
      = .next (sent (wire (c ++ BitVec.ofBool false) h p)) :=
    congrArg Host.Outcome.next (agentSend_eq s c h p)
  exact ⟨hsend _ _, hsend _ _, hsend _ _, hsend _ _, hsend _ _⟩

/-- The row `DATA_FRAME` (R194) gives its value to the caller. -/
theorem exec_dataFrame (d : List Byte) (s : State) :
    exec (.dataFrame d) s = .next (s.giveBack (.frame (dataFrameValue s.params s.agent.hash d))) := rfl

/-- The row `AG_BUILD_REQUEST` (R197) gives its value to the caller. -/
theorem exec_agBuildRequest (r : AppRequest) (s : State) :
    exec (.agBuildRequest r) s = .next (s.giveBack (.wire (encodeFrame (forAppRequestFrame s.agent.hash r)))) := rfl

/-- Settles O40: in R194's range the frame is `dataFrameOf`, whose bytes the receiver's chunk then holds; elsewhere it has its header. -/
theorem dataFrameDeliversItsBytes : Obligations.DataFrameDeliversItsBytes := by
  unfold Obligations.DataFrameDeliversItsBytes
  intro d s hchunk
  constructor
  · intro hmin hmax f
    have hf : dataFrameOf s.params s.agent.hash d = f := dataFrameOf_eq _ _ _
    have hvalue : dataFrameValue s.params s.agent.hash d = f := (if_pos ⟨hmin, hmax⟩).trans hf
    have hpayload : f.payload = 5 :: dataFrameRest s.params d := hf ▸ rfl
    refine ⟨by rw [exec_dataFrame, hvalue]; rfl, ?_, _, rfl, loadChunk_chunkLeft d { s with rx := f } hchunk hmin hmax hpayload⟩
    rw [hpayload, List.length_cons, dataFrameRest]
    split
    case isTrue hstart =>
      rw [hstart] at hmax
      rw [List.length_append]
      exact Nat.succ_le_succ hmax
    case isFalse => omega
  · intro hrange
    have hout : ¬ (1 ≤ d.length ∧ d.length + s.params.chunkCursorStart.val ≤ 7) := by omega
    refine ⟨(Config.unstatedDataPayload s.params.chunkCursorStart.val d).take 8, List.length_take_le _ _, ?_⟩
    rw [exec_dataFrame, dataFrameValue, if_neg hout]
    rfl

/-- Settles O41: the row gives back the encoded request. -/
theorem buildRequestAddressesTheBoard : Obligations.BuildRequestAddressesTheBoard := by
  unfold Obligations.BuildRequestAddressesTheBoard
  intro y z s answers
  simp only [exec_agBuildRequest, forAppRequestFrame, mkFrame, encodeFrame_eq_wire]
  exact ⟨rfl, rfl, rfl⟩

/-! ## RESET (70_reset_and_hazards.md) -/

/-- Settles O43: the row is `powerCycle`. -/
theorem resetRestoresTheListedRegisters : Obligations.ResetRestoresTheListedRegisters := by
  unfold Obligations.ResetRestoresTheListedRegisters
  exact fun s => ⟨s.powerCycle, s.identLoad s.params.baseUidApp, rfl, rfl, rfl⟩

/-- Settles O44: the registers are `State.reset`'s own, and the identity is the generator's on two digits `'0'`. -/
theorem resetStateHasTheGivenValues : Obligations.ResetStateHasTheGivenValues := by
  unfold Obligations.ResetStateHasTheGivenValues
  exact ⟨rfl, rfl, rfl, rfl, rfl, rfl, rfl, by decide⟩

end Sys2Proof.Proofs.Rows

/-! PROOFS. The obligations about whose turn it is and which step is taken (spec 44_update_receiver.md section 1, 60_exceptions.md section 2,
43_config_stream.md, 70_reset_and_hazards.md section 1): each is the branch of the turn that its hypotheses select. -/

namespace Sys2Proof.Proofs.Steps

open Sys2Proof Sys2Proof.Machine

/-! ## The step at its event -/

/-- A step carries out its event at the state from which the event has been taken. -/
theorem step_of_event {s : State} {e : Event} (h : s.nextEvent = e) : step s = (s.atTurn.eventTurn e).outcome := by
  rw [step_eq, h]

theorem nodeTurn_application {s : State} (hmode : s.mode = .application) : s.nodeTurn = s.applicationTurn := by
  rw [State.nodeTurn, hmode]

theorem nodeTurn_bootloader {s : State} (hmode : s.mode = .bootloader) : s.nodeTurn = s.bootloaderTurn := by
  rw [State.nodeTurn, hmode]

theorem step_application {s : State} (hnode : s.nextEvent = .node) (hmode : s.mode = .application) :
    step s = s.atTurn.applicationTurn.outcome :=
  (step_of_event hnode).trans (congrArg Turn.outcome (nodeTurn_application (s := s.atTurn) hmode))

theorem step_bootloader {s : State} (hnode : s.nextEvent = .node) (hmode : s.mode = .bootloader) :
    step s = s.atTurn.bootloaderTurn.outcome :=
  (step_of_event hnode).trans (congrArg Turn.outcome (nodeTurn_bootloader (s := s.atTurn) hmode))

/-! ## The receiver's turn by its phase (R151) -/

theorem bootloaderTurn_idle {s : State} (h : s.phase = .idle) : s.bootloaderTurn = .rest s := by
  simp only [State.bootloaderTurn, h]

theorem bootloaderTurn_awaitingStart {s : State} (h : s.phase = .awaitingStart) : s.bootloaderTurn = .run .blAnnounce s := by
  simp only [State.bootloaderTurn, h]

theorem bootloaderTurn_waiting {s : State} (h : s.phase = .streaming) (hw : s.waiting = true) : s.bootloaderTurn = s.waitTurn := by
  simp only [State.bootloaderTurn, h, hw, if_true]

theorem bootloaderTurn_request {s : State} (h : s.phase = .streaming) (hw : s.waiting = false) (hc : s.chunkExhausted = true) :
    s.bootloaderTurn = .run .blRequest s := by
  simp only [State.bootloaderTurn, h, hw, hc, Bool.false_eq_true, if_false, if_true]

theorem bootloaderTurn_pull {s : State} (h : s.phase = .streaming) (hw : s.waiting = false) (hc : s.chunkExhausted = false) :
    s.bootloaderTurn = .run .blPull s := by
  simp only [State.bootloaderTurn, h, hw, hc, Bool.false_eq_true, if_false]

theorem bootloaderTurn_finished {s : State} (h : s.phase = .finished) : s.bootloaderTurn = .run .blFinish s := by
  simp only [State.bootloaderTurn, h]

theorem bootloaderTurn_handoff {s : State} (h : s.phase = .handoffToApplication) : s.bootloaderTurn = .run .blHandoff s := by
  simp only [State.bootloaderTurn, h]

theorem bootloaderTurn_halted {s : State} (h : s.phase = .halted) : s.bootloaderTurn = .fault .halted := by
  simp only [State.bootloaderTurn, h]

/-! ## The router's turn -/

/-- A frame that is available comes first (R208). -/
theorem applicationTurn_of_frame {s : State} {w : WireFrame} {rest : List WireFrame} (hq : s.rxQueue = w :: rest) :
    s.applicationTurn = ({ s with rxQueue := rest } : State).receiveTurn .router w := by
  simp only [State.applicationTurn, hq]

theorem applicationTurn_emits {s : State} (hq : s.rxQueue = []) (hactive : s.cfgEmitActive = true) :
    s.applicationTurn = .run .cfgEmitStep s := by
  simp only [State.applicationTurn, hq, hactive, if_true]

theorem applicationTurn_drains {s : State} (hq : s.rxQueue = []) (hidle : s.cfgEmitActive = false) (hpending : s.cfgPending = true) :
    s.applicationTurn = .run .cfgDrain s := by
  simp only [State.applicationTurn, hq, hidle, hpending, Bool.false_eq_true, if_false, if_true]

theorem applicationTurn_rests {s : State} (hq : s.rxQueue = []) (hidle : s.cfgEmitActive = false) (hdone : s.cfgPending = false) :
    s.applicationTurn = .rest s := by
  simp only [State.applicationTurn, hq, hidle, hdone, Bool.false_eq_true, if_false]

/-- Routing the frame a turn takes is `RX_DISPATCH`. -/
theorem outcome_receiveTurn_router {s : State} {w : WireFrame} {rest : List WireFrame} (hmode : s.mode = .application)
    (hq : s.rxQueue = w :: rest) (hw : w.wf = true) :
    (({ s with rxQueue := rest } : State).receiveTurn .router w).outcome = exec .rxDispatch s := by
  rw [Rows.exec_rxDispatch hq hmode, State.receiveTurn, decode_router_of_wf hw]
  exact exec_decodeRouter w (reception_application hmode)

/-- Settles O47: the branches of the router's turn. -/
theorem applicationStepPriority : Obligations.ApplicationStepPriority := by
  unfold Obligations.ApplicationStepPriority
  intro s hnode hmode
  rw [step_application hnode hmode]
  refine ⟨?frame, fun hq hactive => congrArg Turn.outcome (applicationTurn_emits (s := s.atTurn) hq hactive),
    fun hq hidle hpending => congrArg Turn.outcome (applicationTurn_drains (s := s.atTurn) hq hidle hpending),
    fun hq hidle hdone => congrArg Turn.outcome (applicationTurn_rests (s := s.atTurn) hq hidle hdone)⟩
  case frame =>
    rintro ⟨w, hhead, hw⟩
    obtain ⟨rest, hq⟩ : ∃ rest, s.rxQueue = w :: rest := List.head?_eq_some_iff.mp hhead
    rw [applicationTurn_of_frame (s := s.atTurn) hq]
    exact outcome_receiveTurn_router (s := s.atTurn) hmode hq hw

/-! ## The wait -/

theorem waitTurn_of_frame {s : State} {w : WireFrame} {rest : List WireFrame} (hq : s.rxQueue = w :: rest)
    (hframe : (s.blTimeoutEnabled && s.env.timeoutFirst) = false) :
    s.waitTurn = ({ s with rxQueue := rest } : State).receiveTurn .poll w := by
  simp only [State.waitTurn, hq]
  exact if_neg (Bool.eq_false_iff.mp hframe)

/-- An expired timeout is taken where no frame competes, or where it goes first (R151, log 8). -/
theorem waitTurn_of_timeout {s : State} (ht : s.blTimeoutEnabled = true) (hfirst : s.rxQueue = [] ∨ s.env.timeoutFirst = true) :
    s.waitTurn = .run .blTimeout s := by
  unfold State.waitTurn
  split
  case h_1 => exact if_pos ht
  case h_2 w rest hq =>
    have hfirst' : s.env.timeoutFirst = true := hfirst.resolve_left (by simp [hq])
    exact if_pos (Bool.and_eq_true_iff.mpr ⟨ht, hfirst'⟩)

/-- With neither the receiver is blocked (R165). -/
theorem waitTurn_blocked {s : State} (ht : s.blTimeoutEnabled = false) (hq : s.rxQueue = []) : s.waitTurn = .rest s := by
  simp only [State.waitTurn, hq]
  exact if_neg (Bool.eq_false_iff.mp ht)

/-- A waiting receiver's timeout is the parameter and the timer's level (R166). -/
theorem blTimeoutEnabled_iff {s : State} (hr : s.reception = .poll) :
    s.blTimeoutEnabled = true ↔ s.params.timeoutEn = true ∧ s.env.timeoutExpired = true := by
  obtain ⟨hmode, hphase, hwaiting⟩ := (reception_poll_iff s).mp hr
  simp [State.blTimeoutEnabled, State.inPhase, hmode, hphase, hwaiting]

/-- Polling the frame a turn takes is `BL_POLL`. -/
theorem outcome_receiveTurn_poll {s : State} {w : WireFrame} {rest : List WireFrame} (hr : s.reception = .poll)
    (hq : s.rxQueue = w :: rest) (hw : w.wf = true) :
    (({ s with rxQueue := rest } : State).receiveTurn .poll w).outcome = exec .blPoll s := by
  rw [Rows.exec_blPoll hq hr, State.receiveTurn, decode_poll_of_wf hw]
  exact exec_decodePoll (s := { s with rxQueue := rest }) w hr

theorem step_wait {s : State} (hnode : s.nextEvent = .node) (hr : s.reception = .poll) : step s = s.atTurn.waitTurn.outcome := by
  obtain ⟨hmode, hphase, hwaiting⟩ := (reception_poll_iff s).mp hr
  rw [step_bootloader hnode hmode, bootloaderTurn_waiting (s := s.atTurn) hphase hwaiting]

/-- Settles O46: the branches of the receiver's turn. -/
theorem bootloaderStepIsTheEnabledOne : Obligations.BootloaderStepIsTheEnabledOne := by
  unfold Obligations.BootloaderStepIsTheEnabledOne
  intro s hnode hmode
  have hstep {τ : Turn} (h : s.atTurn.bootloaderTurn = τ) : step s = τ.outcome := h ▸ step_bootloader hnode hmode
  refine ⟨fun hp => hstep (bootloaderTurn_awaitingStart (s := s.atTurn) hp),
    fun hp hw hc => hstep (bootloaderTurn_request (s := s.atTurn) hp hw (decide_eq_true hc)),
    fun hp hw hc => hstep (bootloaderTurn_pull (s := s.atTurn) hp hw (decide_eq_false (not_lt.mpr hc))),
    fun hp hw => ?wait, fun hp => hstep (bootloaderTurn_finished (s := s.atTurn) hp),
    fun hp => hstep (bootloaderTurn_handoff (s := s.atTurn) hp), fun hp => hstep (bootloaderTurn_halted (s := s.atTurn) hp)⟩
  case wait =>
    intro timeout
    have hr : s.reception = .poll := (reception_poll_iff s).mpr ⟨hmode, hp, hw⟩
    have htimeout : s.atTurn.blTimeoutEnabled = true ↔ timeout := blTimeoutEnabled_iff (s := s.atTurn) hr
    rw [step_wait hnode hr]
    refine ⟨?frame, fun ht hfirst => congrArg Turn.outcome (waitTurn_of_timeout (s := s.atTurn) (htimeout.mpr ht) hfirst),
      fun ht hq => congrArg Turn.outcome (waitTurn_blocked (s := s.atTurn) (Bool.eq_false_iff.mpr (mt htimeout.mp ht)) hq)⟩
    case frame =>
      rintro ⟨w, hhead, hwf⟩ hframe
      obtain ⟨rest, hq⟩ : ∃ rest, s.rxQueue = w :: rest := List.head?_eq_some_iff.mp hhead
      have hnot : (s.atTurn.blTimeoutEnabled && s.atTurn.env.timeoutFirst) = false :=
        Bool.and_eq_false_iff.mpr (hframe.imp_left fun h => Bool.eq_false_iff.mpr (mt htimeout.mp h))
      rw [waitTurn_of_frame (s := s.atTurn) hq hnot]
      exact outcome_receiveTurn_poll (s := s.atTurn) hr hq hwf

/-! ## Every event -/

/-- A taken frame is run as what it decodes to (R76). -/
theorem receiveTurn_of_decode {s : State} {c : Context} {w : WireFrame} {i : Instr} (h : decode c w = .instr i) :
    s.receiveTurn c w = .run i s := by
  rw [State.receiveTurn, h]

theorem agentTurn_of_start {s : State} (h : s.agStartEnabled = true) : s.agentTurn = .run .agStart s := if_pos h

/-- A serving agent is not idle, so it does not start (R192, R193). -/
theorem agentTurn_of_serve {s : State} (h : s.agServeEnabled = true) : s.agentTurn = .run .agServe s := by
  obtain ⟨hserving, -⟩ := Bool.and_eq_true_iff.mp h
  have hstart : s.agStartEnabled = false := by simp [State.agStartEnabled, of_decide_eq_true hserving]
  rw [State.agentTurn, if_neg (Bool.eq_false_iff.mp hstart), if_pos h]

theorem agentTurn_of_neither {s : State} (hstart : s.agStartEnabled = false) (hserve : s.agServeEnabled = false) :
    s.agentTurn = .rest s.agentTakes := by
  rw [State.agentTurn, if_neg (Bool.eq_false_iff.mp hstart), if_neg (Bool.eq_false_iff.mp hserve)]

/-- A call a collaborator may make runs its row (log 14). -/
theorem callTurn_of_callable {s : State} {i : Instr} (hcall : callable i = true)
    (hmode : i.context = some .transmit → s.mode = .application) (hfits : callFits i = true) : s.callTurn i = .run i s := by
  rw [State.callTurn, if_neg (Bool.not_eq_false _ ▸ hcall), if_neg fun h => h.2 (hmode h.1), if_neg (Bool.not_eq_false _ ▸ hfits)]

/-- Other calls do nothing. -/
theorem callTurn_of_not_callable {s : State} {i : Instr}
    (h : callable i = false ∨ (i.context = some .transmit ∧ s.mode = .bootloader)) : s.callTurn i = .rest s := by
  by_cases hcall : callable i = false
  · exact if_pos hcall
  · obtain ⟨hrow, hmode⟩ := h.resolve_left hcall
    rw [State.callTurn, if_neg hcall, if_pos ⟨hrow, by simp [hmode]⟩]

/-- Settles O45: event by event, the turn it is and what the turn runs. -/
theorem stepRunsTheDecodedFrame : Obligations.StepRunsTheDecodedFrame := by
  unfold Obligations.StepRunsTheDecodedFrame
  intro s
  refine ⟨fun w rest i hnode hq => ⟨fun hmode hdec => ?router, fun hr ht hdec => ?poll⟩,
    fun w he => ⟨fun hw => ?arrive, fun hw => ?long⟩,
    fun k he => step_of_event he, fun e f he => step_of_event he, fun he => step_of_event he,
    fun he => ⟨fun hstart => ?start, fun hserve => ?serve, fun hstart hserve => ?ignore⟩,
    fun k he => step_of_event he, fun image he => step_of_event he,
    fun i he => ⟨fun hcall hmode hfits => ?runs, fun hnot => ?nothing⟩⟩
  case router =>
    rw [step_application hnode hmode, applicationTurn_of_frame (s := s.atTurn) hq, receiveTurn_of_decode hdec]
    rfl
  case poll =>
    have hframe : (s.atTurn.blTimeoutEnabled && s.atTurn.env.timeoutFirst) = false := Bool.and_eq_false_iff.mpr (.inl ht)
    rw [step_wait hnode hr, waitTurn_of_frame (s := s.atTurn) hq hframe, receiveTurn_of_decode hdec]
    rfl
  case arrive =>
    rw [step_of_event he]
    exact congrArg Turn.outcome (if_pos hw)
  case long =>
    rw [step_of_event he]
    exact congrArg Turn.outcome (if_neg (Bool.eq_false_iff.mp hw))
  case start =>
    rw [step_of_event he]
    exact congrArg Turn.outcome (agentTurn_of_start (s := s.atTurn) hstart)
  case serve =>
    rw [step_of_event he]
    exact congrArg Turn.outcome (agentTurn_of_serve (s := s.atTurn) hserve)
  case ignore =>
    rw [step_of_event he]
    exact congrArg Turn.outcome (agentTurn_of_neither (s := s.atTurn) hstart hserve)
  case runs =>
    rw [step_of_event he]
    exact congrArg Turn.outcome (callTurn_of_callable (s := s.atTurn) hcall hmode hfits)
  case nothing =>
    rw [step_of_event he]
    exact congrArg Turn.outcome (callTurn_of_not_callable (s := s.atTurn) hnot)

end Sys2Proof.Proofs.Steps

/-! PROOFS. The obligations about every step of the machine: the invariant (spec 10_state.md), which is a case
analysis of what a step can do (`step_next`), and that a step answers unless the receiver has halted (44_update_receiver.md section 7),
which is a case analysis of whose turn it is. -/

namespace Sys2Proof.Proofs.Invariance

open Sys2Proof Sys2Proof.Machine

/-! ## The invariant -/

/-- A table of two rows of eight bytes, one index, different offsets: the examples are within R6 and R7. -/
theorem examples_wf : Params.examples.wf = true := by decide

/-- Settles O50: every clause is about the chosen values of `State.reset`; Application mode has no session. -/
theorem invariantAtReset : Obligations.InvariantAtReset where
  params := examples_wf
  memory := rfl
  identity := ⟨rfl, rfl, rfl, rfl⟩
  sequencing := ⟨⟨fun _ => rfl, fun _ => rfl⟩, ⟨fun _ => rfl, fun _ => rfl⟩, nofun⟩
  emission := ⟨nofun, nofun⟩
  session := nofun
  frames := ⟨rfl, rfl, nofun, nofun, nofun⟩

/-- The frame that the transceiver hands over is one it held, and so are those it keeps. -/
theorem wf_tail {s : State} (h : s.Inv) {w : WireFrame} {rest : List WireFrame} (hq : s.rxQueue = w :: rest) :
    ∀ v ∈ rest, v.wf = true := by
  obtain ⟨-, -, hqueue, -, -⟩ := h.frames
  exact fun v hv => hqueue v (hq ▸ List.mem_cons_of_mem w hv)

theorem inv_nodeEffect {u t : State} (h : u.Inv) (he : NodeEffect u t) : t.Inv := by
  cases he with
  | route w rest hm hq hw => exact inv_route (inv_queue h (wf_tail h hq)) w hm hw
  | emit _ _ ha => exact inv_emit h ha
  | drain hm _ _ _ => exact inv_drain h hm
  | restApplication => exact h
  | idle => exact h
  | announce hm hp => exact inv_announce h hm hp
  | request hm hp _ hc => exact inv_request h hm hp hc
  | pull hm hp hw hc => exact inv_pull h hm hp hw hc
  | poll w rest hm hp _ hq hw => exact inv_poll (inv_queue h (wf_tail h hq)) w hm hp hw
  | timeout hm => exact inv_abandon h hm
  | blocked => exact h
  | finish hm hp => exact inv_finish h hm hp
  | handOff => exact inv_handOff h

/-- A frame arrives at the transceiver and at the agent. -/
theorem inv_arrive {u : State} (h : u.Inv) {w : WireFrame} (hw : w.wf = true) :
    ({ u with rxQueue := u.rxQueue ++ [w], agent := { u.agent with inbox := u.agent.inbox ++ [w] } } : State).Inv := by
  obtain ⟨hrx, htx, hqueue, htrace, hinbox⟩ := h.frames
  have happend {l : List WireFrame} (hl : ∀ v ∈ l, v.wf = true) : ∀ v ∈ l ++ [w], v.wf = true :=
    List.forall_mem_append.mpr ⟨hl, List.forall_mem_singleton.mpr hw⟩
  exact ⟨h.params, h.memory, h.identity, h.sequencing, h.emission, h.session, hrx, htx, happend hqueue, htrace, happend hinbox⟩

/-- The timer is no part of the invariant. -/
theorem inv_env {u : State} (h : u.Inv) (e : Environment) : ({ u with env := e } : State).Inv :=
  ⟨h.params, h.memory, h.identity, h.sequencing, h.emission, h.session, h.frames⟩

theorem inv_eventEffect {u t : State} {e : Event} (h : u.Inv) (he : EventEffect u e t) : t.Inv := by
  obtain ⟨-, -, hqueue, -, -⟩ := h.frames
  cases he with
  | arrive w hw => exact inv_arrive h hw
  | lose k => exact inv_queue h fun w hw => hqueue w (List.mem_of_mem_eraseIdx hw)
  | timer => exact inv_env h _
  | reset => exact inv_powerCycle h
  | agentStart => exact inv_agent h fun w hw => List.mem_of_mem_drop hw
  | agentServe => exact inv_serve h
  | agentIgnores => exact inv_agent h fun w hw => List.mem_of_mem_drop hw
  | agentLose k => exact inv_agent h fun w hw => List.mem_of_mem_eraseIdx hw
  | agentImage image => exact inv_agent h fun w hw => hw
  | callNothing => exact h
  | callReturns _ v => exact inv_out h rfl
  | callSends _ f _ _ _ hf => exact inv_send h hf
  | callAgentSends _ f _ _ hf => exact inv_agentSend h hf

theorem inv_step {s t : State} (h : s.Inv) (hstep : step s = .next t) : t.Inv := by
  obtain ⟨-, he⟩ | ⟨-, he⟩ := step_next hstep
  · exact inv_nodeEffect (inv_atTurn h) he
  · exact inv_eventEffect (inv_atTurn h) he

/-- Settles O51: the effect of the node's turn and of every other event keeps the invariant. -/
theorem stepKeepsTheInvariant : Obligations.StepKeepsTheInvariant := by
  unfold Obligations.StepKeepsTheInvariant
  exact fun s t h hstep => inv_step h hstep

/-! ## Every step answers -/

/-- A turn that ends in a next state. -/
def Answers (τ : Turn) : Prop := ∃ t, τ.outcome = .next t

/-- A step is safe where the turn of its event answers. -/
theorem safe_of_answers {s : State} (h : Answers (s.atTurn.eventTurn s.nextEvent)) : s.safe :=
  h.imp fun _ ht => (step_eq s).trans ht

theorem answers_of_run {τ : Turn} {i : Instr} {s t : State} (hτ : τ = .run i s) (h : exec i s = .next t) : Answers τ :=
  ⟨t, hτ ▸ h⟩

theorem answers_of_rest {τ : Turn} {s : State} (hτ : τ = .rest s) : Answers τ :=
  ⟨s, hτ ▸ rfl⟩

theorem applicationTurn_answers {s : State} (hm : s.mode = .application) (hq : ∀ w ∈ s.rxQueue, w.wf = true) :
    Answers s.applicationTurn := by
  cases hqueue : s.rxQueue with
  | cons w rest =>
    have hw : w.wf = true := hq w (hqueue ▸ List.mem_cons_self)
    refine ⟨({ s with rxQueue := rest } : State).routeFrame w, ?_⟩
    rw [Steps.applicationTurn_of_frame hqueue, Steps.outcome_receiveTurn_router hm hqueue hw, Rows.exec_rxDispatch hqueue hm]
  | nil =>
    cases hactive : s.cfgEmitActive with
    | true => exact answers_of_run (Steps.applicationTurn_emits hqueue hactive) (ConfigStream.exec_cfgEmitStep hm hactive)
    | false =>
      cases hpending : s.cfgPending with
      | true =>
        exact answers_of_run (Steps.applicationTurn_drains hqueue hactive hpending) (ConfigStream.exec_cfgDrain hm hpending hactive)
      | false => exact answers_of_rest (Steps.applicationTurn_rests hqueue hactive hpending)

theorem waitTurn_answers {s : State} (hr : s.reception = .poll) (hq : ∀ w ∈ s.rxQueue, w.wf = true) : Answers s.waitTurn := by
  by_cases htaken : s.blTimeoutEnabled = true ∧ (s.rxQueue = [] ∨ s.env.timeoutFirst = true)
  · obtain ⟨ht, hfirst⟩ := htaken
    exact answers_of_run (Steps.waitTurn_of_timeout ht hfirst) (Rows.whenEnabled_of_enabled (s := s) ht)
  · cases hqueue : s.rxQueue with
    | nil =>
      have hnot : s.blTimeoutEnabled = false := Bool.eq_false_iff.mpr fun ht => htaken ⟨ht, .inl hqueue⟩
      exact answers_of_rest (Steps.waitTurn_blocked hnot hqueue)
    | cons w rest =>
      have hnot : (s.blTimeoutEnabled && s.env.timeoutFirst) = false :=
        Bool.eq_false_iff.mpr fun h => htaken ((Bool.and_eq_true_iff.mp h).imp_right .inr)
      have hw : w.wf = true := hq w (hqueue ▸ List.mem_cons_self)
      refine ⟨({ s with rxQueue := rest } : State).pollFrame w, ?_⟩
      rw [Steps.waitTurn_of_frame hqueue hnot, Steps.outcome_receiveTurn_poll hr hqueue hw, Rows.exec_blPoll hqueue hr]

/-- The receiver's turn answers in every phase but `Halted` (R151, R173). -/
theorem bootloaderTurn_answers {s : State} (hm : s.mode = .bootloader) (hq : ∀ w ∈ s.rxQueue, w.wf = true) (hp : s.phase ≠ .halted) :
    Answers s.bootloaderTurn := by
  cases hphase : s.phase with
  | idle => exact answers_of_rest (Steps.bootloaderTurn_idle hphase)
  | awaitingStart => exact answers_of_run (Steps.bootloaderTurn_awaitingStart hphase) (Rows.exec_blAnnounce hm hphase)
  | streaming =>
    cases hw : s.waiting with
    | true =>
      rw [Steps.bootloaderTurn_waiting hphase hw]
      exact waitTurn_answers ((reception_poll_iff s).mpr ⟨hm, hphase, hw⟩) hq
    | false =>
      cases hc : s.chunkExhausted with
      | true => exact answers_of_run (Steps.bootloaderTurn_request hphase hw hc) (Rows.exec_blRequest hm hphase hw hc)
      | false => exact answers_of_run (Steps.bootloaderTurn_pull hphase hw hc) (Rows.exec_blPull hm hphase hw hc)
  | finished => exact answers_of_run (Steps.bootloaderTurn_finished hphase) (UpdateReceiver.exec_blFinish hm hphase)
  | handoffToApplication => exact answers_of_run (Steps.bootloaderTurn_handoff hphase) (Rows.exec_blHandoff hm hphase)
  | halted => exact absurd hphase hp

theorem agentTurn_answers (s : State) : Answers s.agentTurn := by
  cases hstart : s.agStartEnabled with
  | true => exact answers_of_run (Steps.agentTurn_of_start hstart) (Rows.whenEnabled_of_enabled (s := s) hstart)
  | false =>
    cases hserve : s.agServeEnabled with
    | true => exact answers_of_run (Steps.agentTurn_of_serve hserve) (Rows.whenEnabled_of_enabled (s := s) hserve)
    | false => exact answers_of_rest (Steps.agentTurn_of_neither hstart hserve)

/-- Every event within bounds but the node's turn is carried out. -/
theorem eventTurn_answers {s : State} {e : Event} (he : e.withinBounds) (hnode : e ≠ .node) : Answers (s.eventTurn e) := by
  cases e with
  | node => exact absurd rfl hnode
  | arrive w => exact answers_of_rest (if_pos he)
  | agent => exact agentTurn_answers s
  | call i => exact callTurn_answers s he
  | lose | timer | reset | agentLose | agentImage => exact ⟨_, rfl⟩

/-- Settles O48: by the event and, in the node's turn, by mode and phase. -/
theorem stepAnswersUnlessHalted : Obligations.StepAnswersUnlessHalted := by
  unfold Obligations.StepAnswersUnlessHalted
  intro s h hbounds
  obtain ⟨-, -, hqueue, -, -⟩ := (inv_atTurn h).frames
  by_cases hnode : s.nextEvent = .node
  · cases hm : s.mode with
    | application =>
      obtain ⟨t, ht⟩ := applicationTurn_answers (s := s.atTurn) hm hqueue
      exact .inl ⟨t, (Steps.step_application hnode hm).trans ht⟩
    | bootloader =>
      by_cases hp : s.phase = .halted
      · have hfault : step s = .fault .halted := by
          rw [Steps.step_bootloader hnode hm, Steps.bootloaderTurn_halted (s := s.atTurn) hp]
          rfl
        exact .inr ⟨hnode, rfl, hp, hfault⟩
      · obtain ⟨t, ht⟩ := bootloaderTurn_answers (s := s.atTurn) hm hqueue hp
        exact .inl ⟨t, (Steps.step_bootloader hnode hm).trans ht⟩
  · exact .inl (safe_of_answers (eventTurn_answers hbounds hnode))

end Sys2Proof.Proofs.Invariance

/-! PROOFS. The obligations about what steps leave alone (spec 60_exceptions.md section 3, 42_command_router.md section 1,
44_update_receiver.md section 7): the mode and the phase, the two memories, and `TX`. Each is read off the effects a step can have
(`step_next`), for which this file says once what each operation leaves unchanged. -/

namespace Sys2Proof.Proofs.Frames

open Sys2Proof Sys2Proof.Machine

/-! ## Events other than the node's turn and reset -/

/-- Outside the node's turn and reset, mode, phase and memories stay (60_exceptions.md section 3). -/
theorem eventEffect_frame {u t : State} {e : Event} (h : EventEffect u e t) (hreset : e ≠ .reset) :
    t.mode = u.mode ∧ t.phase = u.phase ∧ t.mem = u.mem := by
  cases h with
  | reset => exact absurd rfl hreset
  | agentServe =>
    simp only [State.serveRequest]
    split <;> exact ⟨rfl, rfl, rfl⟩
  | _ => exact ⟨rfl, rfl, rfl⟩

/-- An event that is not the node's turn writes no memory; reset writes none either. -/
theorem eventEffect_mem {u t : State} {e : Event} (h : EventEffect u e t) : t.mem = u.mem := by
  by_cases hreset : e = .reset
  · subst hreset
    cases h
    rfl
  · obtain ⟨-, -, hmem⟩ := eventEffect_frame h hreset
    exact hmem

/-- The node has no turn in `Halted` (R173). -/
theorem not_nodeEffect_halted {u t : State} (hmode : u.mode = .bootloader) (hphase : u.phase = .halted) : ¬ NodeEffect u t := by
  intro h
  cases h <;> simp_all

/-- Settles O49: a halted node takes no turn, and of the other events only reset touches mode or phase. -/
theorem onlyResetLeavesHalted : Obligations.OnlyResetLeavesHalted := by
  unfold Obligations.OnlyResetLeavesHalted
  intro s t hmode hphase hstep
  obtain ⟨-, he⟩ | ⟨-, he⟩ := step_next hstep
  · exact absurd he (not_nodeEffect_halted (u := s.atTurn) hmode hphase)
  · by_cases hreset : s.nextEvent = .reset
    · rw [hreset] at he
      cases he
      exact .inl ⟨hreset, rfl, rfl⟩
    · obtain ⟨hm, hp, -⟩ := eventEffect_frame he hreset
      exact .inr ⟨hreset, hm.trans hmode, hp.trans hphase⟩

/-! ## What the node's operations leave alone -/

theorem emitConfig_frame (s : State) : s.emitConfig.mem = s.mem ∧ s.emitConfig.mode = s.mode := by
  simp only [State.emitConfig]
  split <;> exact ⟨rfl, rfl⟩

theorem drainConfig_frame (s : State) :
    s.drainConfig.mem = s.mem ∧ s.drainConfig.mode = s.mode ∧ s.drainConfig.out.trace = s.out.trace := by
  simp only [State.drainConfig]
  split <;> exact ⟨rfl, rfl, rfl⟩

theorem pollFrame_frame (s : State) (w : WireFrame) :
    (s.pollFrame w).mem = s.mem ∧ (s.pollFrame w).mode = s.mode ∧ (s.pollFrame w).out.trace = s.out.trace := by
  rcases pollFrame_cases s w with h | ⟨-, h⟩ | ⟨_, _, -, h⟩ | ⟨_, _, -, h⟩ <;> rw [h] <;> exact ⟨rfl, rfl, rfl⟩

/-- A commit writes memory, but neither the mode nor `TX`. -/
theorem commitPage_frame (s : State) : s.commitPage.mode = s.mode ∧ s.commitPage.out.trace = s.out.trace := by
  unfold State.commitPage
  split <;> exact ⟨rfl, rfl⟩

theorem pullByte_frame (s : State) : s.pullByte.mode = s.mode ∧ s.pullByte.out.trace = s.out.trace := by
  simp only [State.pullByte]
  split
  · exact commitPage_frame { s with session := _ }
  · exact ⟨rfl, rfl⟩

theorem finishTransfer_frame (s : State) : s.finishTransfer.mode = s.mode ∧ s.finishTransfer.out.trace = s.out.trace := by
  simp only [State.finishTransfer]
  split <;> exact commitPage_frame s

/-! ## The memories -/

/-- Every byte of the space reads as before. -/
def KeepsSpace (sp : Space) (s t : State) : Prop := ∀ a, t.mem.read sp a = s.mem.read sp a

theorem keepsSpace_of_mem {sp : Space} {s t : State} (h : t.mem = s.mem) : KeepsSpace sp s t := fun _ => by rw [h]

theorem keepsSpace_writeNv (s : State) (a : Nat) (v : Byte) : KeepsSpace .flash s (s.writeNv a v) :=
  fun _ => read_write_other s.mem (.inl (by decide : Space.flash ≠ .nv)) v

theorem keepsSpace_markSetupNotDone (s : State) : KeepsSpace .flash s s.markSetupNotDone := by
  unfold State.markSetupNotDone
  split
  · exact keepsSpace_writeNv s _ _
  · exact keepsSpace_of_mem rfl

theorem keepsSpace_routeFrame (s : State) (w : WireFrame) : KeepsSpace .flash s (s.routeFrame w) := by
  rcases routeFrame_effect s w with ⟨-, h⟩ | ⟨f, -, h⟩
  · exact keepsSpace_of_mem (by rw [h])
  · generalize s.routeFrame w = t at h
    cases h with
    | boardnumChange new _ => exact fun a => Rows.read_persistAddress_other (s := State.send _ _) new (.inl rfl)
    | goBtldr => exact keepsSpace_markSetupNotDone (s.latchRx f).pulseDetach
    | _ => exact keepsSpace_of_mem rfl

theorem keepsSpace_commitPage (s : State) : KeepsSpace .nv s s.commitPage := by
  unfold State.commitPage
  split
  · exact keepsSpace_of_mem rfl
  · exact fun _ => read_writeList_other _ _ (.inl (by decide))

theorem keepsSpace_pullByte (s : State) : KeepsSpace .nv s s.pullByte := by
  simp only [State.pullByte]
  split
  · exact keepsSpace_commitPage { s with session := _ }
  · exact keepsSpace_of_mem rfl

theorem keepsSpace_finishTransfer (s : State) : KeepsSpace .nv s s.finishTransfer := by
  simp only [State.finishTransfer]
  split <;> exact keepsSpace_commitPage s

theorem nodeEffect_keepsFlash {u t : State} (h : NodeEffect u t) (hmode : u.mode = .application) : KeepsSpace .flash u t := by
  cases h
  case route w rest _ _ _ => exact keepsSpace_routeFrame { u with rxQueue := rest } w
  case emit => exact keepsSpace_of_mem (emitConfig_frame u).1
  case drain => exact keepsSpace_of_mem (drainConfig_frame u).1
  case restApplication => exact keepsSpace_of_mem rfl
  all_goals exact absurd (hmode.symm.trans ‹u.mode = .bootloader›) Mode.noConfusion

theorem nodeEffect_keepsNv {u t : State} (h : NodeEffect u t) (hmode : u.mode = .bootloader) : KeepsSpace .nv u t := by
  cases h
  case pull => exact keepsSpace_pullByte u
  case poll w rest _ _ _ _ _ => exact keepsSpace_of_mem (pollFrame_frame { u with rxQueue := rest } w).1
  case finish => exact keepsSpace_finishTransfer u
  case idle | announce | request | timeout | blocked | handOff => exact keepsSpace_of_mem rfl
  all_goals exact absurd (hmode.symm.trans ‹u.mode = .application›) Mode.noConfusion

/-- Settles O52: the router's operations write NV alone, the receiver's write FLASH alone, and no other event writes. -/
theorem eachModeWritesItsMemoryOnly : Obligations.EachModeWritesItsMemoryOnly := by
  unfold Obligations.EachModeWritesItsMemoryOnly
  intro s t hstep
  obtain ⟨hnode, he⟩ | ⟨-, he⟩ := step_next hstep
  · exact ⟨nodeEffect_keepsFlash (u := s.atTurn) he, nodeEffect_keepsNv (u := s.atTurn) he, absurd hnode⟩
  · have hmem : t.mem = s.mem := eventEffect_mem (u := s.atTurn) he
    exact ⟨fun _ => keepsSpace_of_mem hmem, fun _ => keepsSpace_of_mem hmem, fun _ => hmem⟩

/-! ## The mode -/

/-- Routing leaves the mode alone, or it enters the bootloader on `GO_BTLDR` with this node's address (R124). -/
theorem routeFrame_mode (s : State) (w : WireFrame) :
    (s.routeFrame w).mode = s.mode
      ∨ ∃ h r, w = wire 0x00A4#13 h (3 :: s.ident.address.hi :: s.ident.address.lo :: r) := by
  rcases routeFrame_effect s w with ⟨-, h⟩ | ⟨⟨c, r, h, p⟩, rfl, he⟩
  · exact .inl (by rw [h])
  · generalize s.routeFrame _ = t at he
    cases he with
    | goBtldr hc hr hp =>
      obtain rfl : c = cmdForApp := hc
      obtain rfl : r = false := hr
      have hpayload : p = [subGoBtldr, s.ident.address.hi, s.ident.address.lo] ++ p.drop 3 := by
        conv_lhs => rw [← List.take_append_drop 3 p]
        exact congrArg (· ++ p.drop 3) hp
      exact .inr ⟨h, p.drop 3, by rw [hpayload, encodeFrame_eq_wire]; rfl⟩
    | _ => exact .inl rfl

/-- In its turn the node changes its mode by `GO_BTLDR` and by the handoff only. -/
theorem nodeEffect_mode {u t : State} (h : NodeEffect u t) :
    t.mode = u.mode
      ∨ (u.mode = .application ∧ ∃ h r, u.rxQueue.head? = some (wire 0x00A4#13 h (3 :: u.ident.address.hi :: u.ident.address.lo :: r)))
      ∨ (u.mode = .bootloader ∧ u.phase = .handoffToApplication) := by
  cases h with
  | route w rest hm hq =>
    obtain hmode | ⟨h, r, hw⟩ := routeFrame_mode { u with rxQueue := rest } w
    · exact .inl hmode
    · exact .inr (.inl ⟨hm, h, r, by rw [hq, hw]; rfl⟩)
  | emit => exact .inl (emitConfig_frame u).2
  | drain => exact .inl (drainConfig_frame u).2.1
  | pull => exact .inl (pullByte_frame u).1
  | poll w rest => exact .inl (pollFrame_frame { u with rxQueue := rest } w).2.1
  | finish => exact .inl (finishTransfer_frame u).1
  | handOff hm hp => exact .inr (.inr ⟨hm, hp⟩)
  | _ => exact .inl rfl

/-- Settles O53: the two turns that change the mode, and reset. -/
theorem modeChangesOnlyWhereSpecified : Obligations.ModeChangesOnlyWhereSpecified := by
  unfold Obligations.ModeChangesOnlyWhereSpecified
  intro s t hstep
  have hne : s.mode = .application → ¬ s.mode = .bootloader := fun h h' => absurd (h.symm.trans h') Mode.noConfusion
  obtain ⟨hnode, he⟩ | ⟨-, he⟩ := step_next hstep
  · obtain hmode | ⟨happ, hframe⟩ | ⟨hboot, hphase⟩ := nodeEffect_mode he
    · have hsame : t.mode = s.mode := hmode
      exact ⟨fun h h' => absurd (hsame.symm.trans h') (hne h), fun h h' => absurd h (hne (hsame.symm.trans h'))⟩
    · exact ⟨fun _ _ => ⟨hnode, hframe⟩, fun h => absurd h (hne happ)⟩
    · exact ⟨fun h => absurd hboot (hne h), fun _ _ => .inr ⟨hnode, hphase⟩⟩
  · by_cases hreset : s.nextEvent = .reset
    · rw [hreset] at he
      cases he
      exact ⟨fun _ h => absurd h Mode.noConfusion, fun _ _ => .inl hreset⟩
    · obtain ⟨hsame, -, -⟩ := eventEffect_frame he hreset
      have hsame : t.mode = s.mode := hsame
      exact ⟨fun h h' => absurd (hsame.symm.trans h') (hne h), fun h h' => absurd h (hne (hsame.symm.trans h'))⟩

/-! ## TX -/

/-- Between the two states the node sends at most one frame, a response under its own hash as it stood. -/
def SendsAtMostOne (s t : State) : Prop :=
  t.out.trace = s.out.trace ∨ ∃ c p, t.out.trace = s.out.trace ++ [encodeFrame ⟨c, true, s.ident.hash, p⟩]

theorem routeFrame_sends (s : State) (w : WireFrame) : SendsAtMostOne s (s.routeFrame w) := by
  rcases routeFrame_effect s w with ⟨-, h⟩ | ⟨f, -, he⟩
  · exact .inl (by rw [h])
  · generalize s.routeFrame w = t at he
    cases he with
    | ping => exact .inr ⟨_, _, rfl⟩
    | boardnumRequest => exact .inr ⟨_, _, rfl⟩
    | boardnumChange => exact .inr ⟨_, _, rfl⟩
    | goBtldr =>
      refine .inr ⟨cmdAppAnswer, subGoBtldr :: s.ident.address.toList, ?_⟩
      rw [Rows.handleGoBtldr_eq, encodeFrame_eq_wire]
      rfl
    | _ => exact .inl rfl

theorem emitConfig_sends (s : State) : SendsAtMostOne s s.emitConfig := by
  simp only [State.emitConfig]
  split <;> exact .inr ⟨_, _, rfl⟩

theorem nodeEffect_sends {u t : State} (h : NodeEffect u t) : SendsAtMostOne u t := by
  cases h with
  | route w rest => exact routeFrame_sends { u with rxQueue := rest } w
  | emit => exact emitConfig_sends u
  | drain => exact .inl (drainConfig_frame u).2.2
  | announce => exact .inr ⟨_, _, rfl⟩
  | request => exact .inr ⟨_, _, rfl⟩
  | pull => exact .inl (pullByte_frame u).2
  | poll w rest => exact .inl (pollFrame_frame { u with rxQueue := rest } w).2.2
  | finish => exact .inl (finishTransfer_frame u).2
  | _ => exact .inl rfl

/-- Settles O54: every turn sends nothing, or one response under the node's hash. -/
theorem nodeSendsAtMostOneFrameUnderItsHash : Obligations.NodeSendsAtMostOneFrameUnderItsHash := by
  unfold Obligations.NodeSendsAtMostOneFrameUnderItsHash
  intro s t hnode hstep
  obtain ⟨-, he⟩ | ⟨hother, -⟩ := step_next hstep
  · refine (nodeEffect_sends he).imp_right ?_
    rintro ⟨c, p, htrace⟩
    have hdecode := (decodeFrame_eq _ []).symm.trans (decodeFrame_of_encoded c true s.ident.hash p [])
    exact ⟨_, htrace, rfl, congrArg CanFrame.hash hdecode, congrArg CanFrame.responseFlag hdecode⟩
  · exact absurd hnode hother

end Sys2Proof.Proofs.Frames

/-! PROOFS. The obligations about a whole transfer (44_update_receiver.md, 45_flash_pager.md, 46_update_agent.md). A transfer goes through
stages, by the phase and by where its next message is; each operation of the node and of the agent leads from one stage to another. From
these transitions follow that every step keeps the relation of a transfer to its image, what FLASH holds at the handoff, and, along a
schedule written out chunk by chunk, that an image that fits is transferred. -/

namespace Sys2Proof.Proofs.Transfer

open Sys2Proof Sys2Proof.Machine

/-! ## The stages of a transfer -/

/-- `BL_ENTER` is done and nothing has been sent. -/
structure Awaiting (m : Memory) (s : State) : Prop where
  phase : s.phase = .awaitingStart
  agentPhase : s.agent.phase = .agIdle
  inbox : s.agent.inbox = []
  queue : s.rxQueue = []
  pageIndex : s.session.pageIndex = 0
  writeCursor : s.session.writeCursor = 0
  flash : s.flashElsewhere m 0

/-- `pulled` is appended, the receiver works on `chunk`, and the agent, in phase `a`, has `rest` still to send. -/
structure Pulling (image : List Byte) (m : Memory) (a : AgentPhase) (pulled chunk rest : List Byte) (s : State) : Prop where
  phase : s.phase = .streaming
  waiting : s.waiting = false
  appended : s.appended m pulled
  agentPhase : s.agent.phase = a
  notDone : a ≠ .agDone
  inbox : s.agent.inbox = s.announcement
  queue : s.rxQueue = []
  chunkLeft : s.chunkLeft = chunk
  unsent : s.unsent image = rest
  bytes : pulled ++ chunk ++ rest = image

/-- The receiver's request is on its way to the agent, which has `rest` still to send. -/
structure Requested (image : List Byte) (m : Memory) (a : AgentPhase) (pulled rest : List Byte) (s : State) : Prop where
  phase : s.phase = .streaming
  waiting : s.waiting = true
  appended : s.appended m pulled
  agentPhase : s.agent.phase = a
  notDone : a ≠ .agDone
  inbox : s.agent.inbox = s.announcement ++ [wire 0x00A3#13 s.ident.hash [subMoreData]]
  queue : s.rxQueue = []
  unsent : s.unsent image = rest
  bytes : pulled ++ rest = image

/-- A data frame with `chunk` is on its way to the receiver. -/
structure Answered (image : List Byte) (m : Memory) (pulled chunk rest : List Byte) (s : State) : Prop where
  phase : s.phase = .streaming
  waiting : s.waiting = true
  appended : s.appended m pulled
  agentPhase : s.agent.phase = .agServing
  inbox : s.agent.inbox = []
  notEmpty : 1 ≤ chunk.length
  fits : chunk.length + s.params.chunkCursorStart.val ≤ 7
  queue : s.rxQueue = [encodeFrame (dataFrameOf s.params s.agent.hash chunk)]
  unsent : s.unsent image = rest
  bytes : pulled ++ chunk ++ rest = image

/-- The end frame is on its way to the receiver. -/
structure Ended (image : List Byte) (m : Memory) (s : State) : Prop where
  phase : s.phase = .streaming
  waiting : s.waiting = true
  appended : s.appended m image
  agentPhase : s.agent.phase = .agDone
  inbox : s.agent.inbox = []
  queue : s.rxQueue = [encodeFrame (endReplyFrame s.agent.hash [])]

/-- The whole image is appended and the last commit is still to come. -/
structure Finished (image : List Byte) (m : Memory) (s : State) : Prop where
  phase : s.phase = .finished
  appended : s.appended m image
  inbox : s.agent.inbox = []
  queue : s.rxQueue = []

/-- The number of pages of an image: its bytes and at least one byte of fill (R185). -/
def pagesOf (image : List Byte) (p : Params) : Nat := image.length / p.pageSize + 1

/-- The image is in FLASH, and fill to the end of its last page. -/
structure Committed (image : List Byte) (m : Memory) (s : State) : Prop where
  phase : s.phase = .handoffToApplication
  pageIndex : s.session.pageIndex = pagesOf image s.params
  fits : pagesOf image s.params ≤ s.params.numPages
  inbox : s.agent.inbox = []
  queue : s.rxQueue = []
  holds : s.flashHolds (image ++ List.replicate (pagesOf image s.params * s.params.pageSize - image.length) 0xFF)
  elsewhere : s.flashElsewhere m (pagesOf image s.params * s.params.pageSize)

/-- The image is longer than the application's pages less one byte (R186). -/
structure Overflowed (image : List Byte) (s : State) : Prop where
  phase : s.phase = .halted
  tooLong : s.params.numPages * s.params.pageSize ≤ image.length

/-- How far a transfer has come. -/
inductive Stage (image : List Byte) (m : Memory) (s : State) : Prop
  | awaiting (h : Awaiting m s)
  | pulling {a : AgentPhase} {pulled chunk rest : List Byte} (h : Pulling image m a pulled chunk rest s)
  | requested {a : AgentPhase} {pulled rest : List Byte} (h : Requested image m a pulled rest s)
  | answered {pulled chunk rest : List Byte} (h : Answered image m pulled chunk rest s)
  | ended (h : Ended image m s)
  | finished (h : Finished image m s)
  | committed (h : Committed image m s)
  | overflowed (h : Overflowed image s)

/-- What a transfer needs at every stage: the bootloader, no timeout, and the agent's image. -/
structure Setting (image : List Byte) (s : State) : Prop where
  mode : s.mode = .bootloader
  noTimeout : s.env.timeoutExpired = false
  image : s.agent.image = image

/-- The relation of a transfer to its image is its setting and its stage. -/
theorem transferring_iff (image : List Byte) (m : Memory) (s : State) :
    s.transferring image m ↔ Setting image s ∧ Stage image m s := by
  constructor
  · rintro ⟨hmode, htimeout, himage, hstage⟩
    refine ⟨⟨hmode, htimeout, himage⟩, ?_⟩
    cases hp : s.phase <;> simp only [hp] at hstage
    case awaitingStart =>
      obtain ⟨h1, h2, h3, h4, h5, h6⟩ := hstage
      exact .awaiting ⟨hp, h1, h2, h3, h4, h5, h6⟩
    case streaming =>
      obtain ⟨pulled, happended, hwhere⟩ := hstage
      cases hw : s.waiting <;> simp only [hw, if_true, Bool.false_eq_true, if_false] at hwhere
      case false =>
        obtain ⟨h1, h2, h3, h4⟩ := hwhere
        exact .pulling ⟨hp, hw, happended, rfl, h1, h2, h3, rfl, rfl, h4⟩
      case true =>
        obtain ⟨h1, h2, h3, h4⟩ | ⟨h1, h2, d, h3, h4, h5, h6⟩ | ⟨h1, h2, h3, rfl⟩ := hwhere
        · exact .requested ⟨hp, hw, happended, rfl, h1, h2, h3, rfl, h4⟩
        · exact .answered ⟨hp, hw, happended, h1, h2, h3, h4, h5, rfl, h6⟩
        · exact .ended ⟨hp, hw, happended, h1, h2, h3⟩
    case finished =>
      obtain ⟨h1, h2, h3⟩ := hstage
      exact .finished ⟨hp, h1, h2, h3⟩
    case handoffToApplication =>
      obtain ⟨h1, h2, h3, h4, h5, h6⟩ := hstage
      exact .committed ⟨hp, h1, h2, h3, h4, h5, h6⟩
    case halted => exact .overflowed ⟨hp, hstage⟩
  · rintro ⟨⟨hmode, htimeout, himage⟩, hstage⟩
    refine ⟨hmode, htimeout, himage, ?_⟩
    cases hstage with
    | awaiting h =>
      simp only [h.phase]
      exact ⟨h.agentPhase, h.inbox, h.queue, h.pageIndex, h.writeCursor, h.flash⟩
    | pulling h =>
      simp only [h.phase, h.waiting, Bool.false_eq_true, if_false]
      exact ⟨_, h.appended, h.agentPhase ▸ h.notDone, h.inbox, h.queue, by rw [h.chunkLeft, h.unsent, h.bytes]⟩
    | requested h =>
      simp only [h.phase, h.waiting, if_true]
      exact ⟨_, h.appended, .inl ⟨h.agentPhase ▸ h.notDone, h.inbox, h.queue, by rw [h.unsent, h.bytes]⟩⟩
    | answered h =>
      simp only [h.phase, h.waiting, if_true]
      exact ⟨_, h.appended, .inr (.inl ⟨h.agentPhase, h.inbox, _, h.notEmpty, h.fits, h.queue, by rw [h.unsent, h.bytes]⟩)⟩
    | ended h =>
      simp only [h.phase, h.waiting, if_true]
      exact ⟨_, h.appended, .inr (.inr ⟨h.agentPhase, h.inbox, h.queue, rfl⟩)⟩
    | finished h =>
      simp only [h.phase]
      exact ⟨h.appended, h.inbox, h.queue⟩
    | committed h =>
      simp only [h.phase]
      exact ⟨h.pageIndex, h.fits, h.inbox, h.queue, h.holds, h.elsewhere⟩
    | overflowed h =>
      simp only [h.phase]
      exact h.tooLong

/-! ## The node's operations -/

/-- The receiver's frames on the bus (R72). -/
theorem encodeFrame_receiverFrame (h : Hash) (sub : Byte) : encodeFrame (receiverFrame h sub) = wire 0x00A3#13 h [sub] :=
  encodeFrame_eq_wire cmdBtldrAnswer true h [sub]

theorem chunkLegal_of_inv {s : State} (h : s.Inv) (hmode : s.mode = .bootloader) : s.chunkLegal := (h.session hmode).1

theorem pageLegal_of_inv {s : State} (h : s.Inv) (hmode : s.mode = .bootloader) : s.pageLegal := by
  obtain ⟨-, -, -, hpage⟩ := h.session hmode
  exact hpage

/-- Before the announcement and in a wait there is nothing left of the chunk (R22, R150). -/
theorem chunkLeft_eq_nil {s : State} (h : s.Inv) (hmode : s.mode = .bootloader) (hwhere : s.phase = .awaitingStart ∨ s.waiting = true) :
    s.chunkLeft = [] := by
  obtain ⟨hchunk, ⟨-, hexhausted⟩, -, -⟩ := h.session hmode
  exact chunkLeft_exhausted hchunk (hexhausted hwhere)

/-- A chunk is used up exactly when nothing is left of it. -/
theorem chunkExhausted_iff {s : State} (h : s.chunkLegal) : s.chunkExhausted = true ↔ s.chunkLeft = [] := by
  refine ⟨chunkLeft_exhausted h, fun hnil => ?_⟩
  by_contra hnot
  obtain ⟨b, -, -, hnext⟩ := chunkLeft_next h (Bool.not_eq_true _ ▸ hnot)
  exact List.cons_ne_nil _ _ (hnext.symm.trans hnil)

theorem waiting_eq_false {s : State} (h : s.Inv) (hphase : s.phase ≠ .streaming) : s.waiting = false := by
  obtain ⟨-, -, hwait⟩ := h.sequencing
  exact Bool.eq_false_iff.mpr (mt hwait hphase)

variable {image pulled chunk rest : List Byte} {m : Memory} {a : AgentPhase} {s : State}

/-- `BL_ANNOUNCE` (R152): the stream begins, with an empty chunk. -/
theorem Awaiting.announce (h : Awaiting m s) (hinv : s.Inv) (hset : Setting image s) :
    Pulling image m .agIdle [] [] image s.announce where
  phase := rfl
  waiting := waiting_eq_false (s := s) hinv (by simp [h.phase])
  appended := by
    have hzero : s.announce.session.pageIndex * s.announce.params.pageSize = 0 := by
      rw [show s.announce.session.pageIndex = 0 from h.pageIndex, Nat.zero_mul]
    have hcursor : s.announce.session.writeCursor = 0 := h.writeCursor
    simp only [State.appended, hzero, hcursor]
    exact ⟨rfl, nofun, rfl, h.flash⟩
  agentPhase := h.agentPhase
  notDone := AgentPhase.noConfusion
  inbox := by
    have hidle : s.announce.agent.phase = .agIdle := h.agentPhase
    rw [State.announcement, if_pos hidle, State.announce, send_inbox, h.inbox, encodeFrame_receiverFrame]
    rfl
  queue := h.queue
  chunkLeft := chunkLeft_eq_nil (s := s) hinv hset.mode (.inl h.phase)
  unsent := if_pos h.agentPhase
  bytes := rfl

/-- `BL_REQUEST` (R155). -/
theorem Pulling.requestChunk (h : Pulling image m a pulled [] rest s) : Requested image m a pulled rest s.requestChunk where
  phase := h.phase
  waiting := rfl
  appended := h.appended
  agentPhase := h.agentPhase
  notDone := h.notDone
  inbox := by
    rw [State.requestChunk, send_inbox, h.inbox, encodeFrame_receiverFrame]
    rfl
  queue := h.queue
  unsent := h.unsent
  bytes := by rw [← h.bytes, List.append_nil]

/-- `BL_POLL` of a data frame (R160, R194): its bytes are the chunk. -/
theorem Answered.pollFrame (h : Answered image m pulled chunk rest s) (hinv : s.Inv) (hset : Setting image s) :
    Pulling image m .agServing pulled chunk rest
      (({ s with rxQueue := [] } : State).pollFrame (encodeFrame (dataFrameOf s.params s.agent.hash chunk))) := by
  rw [dataFrameOf, dataReplyFrame, pollFrame_encoded, if_pos ⟨rfl, rfl⟩]
  refine ⟨h.phase, rfl, h.appended, h.agentPhase, AgentPhase.noConfusion, ?inbox, rfl, ?chunk, h.unsent, h.bytes⟩
  case inbox =>
    have hserving : s.agent.phase ≠ .agIdle := by simp [h.agentPhase]
    exact h.inbox.trans (if_neg hserving).symm
  case chunk =>
    obtain ⟨hlength, -⟩ := chunkLegal_of_inv hinv hset.mode
    exact loadChunk_chunkLeft chunk (State.latchRx { s with rxQueue := [] } _) hlength h.notEmpty h.fits rfl

/-- `BL_POLL` of the end frame (R161). -/
theorem Ended.pollFrame (h : Ended image m s) :
    Finished image m (({ s with rxQueue := [] } : State).pollFrame (encodeFrame (endReplyFrame s.agent.hash []))) := by
  rw [endReplyFrame, pollFrame_encoded, if_pos ⟨rfl, rfl⟩]
  exact ⟨rfl, h.appended, h.inbox, rfl⟩

/-! ### Commits -/

/-- A commit of a page that exists: the whole buffer follows in FLASH what was there (R181). -/
theorem commitPage_flash (hmem : s.mem.wf = true) (hbuffer : s.session.pageBuffer.length = s.params.pageSize)
    (hpage : s.session.pageIndex < s.params.numPages) (h : s.appended m pulled) :
    s.commitPage.flashHolds (pulled.take (s.session.pageIndex * s.params.pageSize) ++ s.session.pageBuffer)
      ∧ s.commitPage.flashElsewhere m ((s.session.pageIndex + 1) * s.params.pageSize) := by
  obtain ⟨hlength, hholds, -, helsewhere⟩ := h
  have htake : (pulled.take (s.session.pageIndex * s.params.pageSize)).length = s.session.pageIndex * s.params.pageSize := by
    rw [List.length_take, hlength]
    omega
  rw [FlashPager.commitPage_of_page hbuffer hpage]
  exact flash_commit hmem hbuffer htake hholds (htake.symm ▸ helsewhere) _ rfl rfl

/-- A full page is committed: all that is pulled is in FLASH, and the buffer is empty again. -/
theorem commitPage_appended (hmem : s.mem.wf = true) (hbuffer : s.session.pageBuffer.length = s.params.pageSize)
    (hfull : s.session.writeCursor = s.params.pageSize) (hpage : s.session.pageIndex < s.params.numPages) (h : s.appended m pulled) :
    s.commitPage.appended m pulled := by
  obtain ⟨hholds, helsewhere⟩ := commitPage_flash hmem hbuffer hpage h
  obtain ⟨hlength, -, htaken, -⟩ := h
  have hpulled : pulled.length = (s.session.pageIndex + 1) * s.params.pageSize := by rw [hlength, hfull, Nat.succ_mul]
  have hbytes : pulled.take (s.session.pageIndex * s.params.pageSize) ++ s.session.pageBuffer = pulled := by
    rw [hfull, ← hbuffer, List.take_length] at htaken
    rw [htaken, hbuffer, List.take_append_drop]
  rw [hbytes] at hholds
  rw [FlashPager.commitPage_of_page hbuffer hpage] at hholds helsewhere ⊢
  refine ⟨hpulled, ?_, ?_, helsewhere⟩
  · exact (List.take_of_length_le hpulled.le).symm ▸ hholds
  · exact (List.drop_eq_nil_of_le hpulled.le).symm

/-! ### Pulls -/

/-- The state after a pull's append, before any commit (R163). -/
def appendByte (s : State) (b : Byte) : State :=
  { s with session := { s.session with
      chunkCursor := s.session.chunkCursor + 1
      pageBuffer := s.session.pageBuffer.set s.session.writeCursor b
      writeCursor := s.session.writeCursor + 1 } }

/-- `BL_PULL` appends the next byte of the chunk, and commits a page that this fills (R163). -/
theorem pullByte_eq {b : Byte} (hlegal : s.chunkLegal) (hnext : s.chunkLeft = b :: chunk) :
    s.pullByte = (if s.session.writeCursor + 1 = s.params.pageSize then (appendByte s b).commitPage else appendByte s b)
      ∧ (appendByte s b).chunkLeft = chunk := by
  have hmore : s.chunkExhausted = false :=
    Bool.eq_false_iff.mpr fun hx => List.cons_ne_nil _ _ (hnext.symm.trans (chunkLeft_exhausted hlegal hx))
  obtain ⟨b', -, hbyte, hleft⟩ := chunkLeft_next hlegal hmore
  obtain ⟨rfl, hchunk⟩ := List.cons.inj (hnext.symm.trans hleft)
  refine ⟨?_, hchunk.symm⟩
  simp only [State.pullByte, hbyte]
  rfl

/-- A commit leaves the chunk alone. -/
theorem commitPage_chunkLeft (hpage : s.session.pageIndex < s.params.numPages) : s.commitPage.chunkLeft = s.chunkLeft := by
  rw [State.commitPage, if_neg (Nat.not_le.mpr hpage)]
  rfl

/-- What a commit of a page that exists leaves of the rest of the machine. -/
theorem commitPage_rest (hpage : s.session.pageIndex < s.params.numPages) :
    s.commitPage.phase = s.phase ∧ s.commitPage.waiting = s.waiting ∧ s.commitPage.agent = s.agent
      ∧ s.commitPage.rxQueue = s.rxQueue ∧ s.commitPage.ident = s.ident ∧ s.commitPage.params = s.params := by
  rw [State.commitPage, if_neg (Nat.not_le.mpr hpage)]
  exact ⟨rfl, rfl, rfl, rfl, rfl, rfl⟩

/-- A pull goes on with the stream; beyond the last page the receiver stops, and then the image is too long (R163, R186). -/
theorem Pulling.pullByte {b : Byte} (h : Pulling image m a pulled (b :: chunk) rest s) (hinv : s.Inv) (hset : Setting image s) :
    Pulling image m a (pulled ++ [b]) chunk rest s.pullByte ∨ Overflowed image s.pullByte := by
  have hlegal := pageLegal_of_inv hinv hset.mode
  obtain ⟨hbuffer, -, -⟩ := pageLegal_of_inv hinv hset.mode
  obtain ⟨hpull, hleft⟩ := pullByte_eq (chunkLegal_of_inv hinv hset.mode) h.chunkLeft
  have happended : (appendByte s b).appended m (pulled ++ [b]) := appended_pull h.appended hlegal b _
  have hbytes : (pulled ++ [b]) ++ chunk ++ rest = image := by rw [← h.bytes, List.append_assoc pulled [b] chunk]; rfl
  rw [hpull]
  split
  case isFalse => exact .inl ⟨h.phase, h.waiting, happended, h.agentPhase, h.notDone, h.inbox, h.queue, hleft, h.unsent, hbytes⟩
  case isTrue hfull =>
    by_cases hpage : s.session.pageIndex < s.params.numPages
    · obtain ⟨hphase, hwaiting, hagent, hqueue, hident, hparams⟩ := commitPage_rest (s := appendByte s b) hpage
      refine .inl ⟨hphase.trans h.phase, hwaiting.trans h.waiting, ?appended, hagent ▸ h.agentPhase, h.notDone, ?inbox,
        hqueue.trans h.queue, (commitPage_chunkLeft (s := appendByte s b) hpage).trans hleft, ?unsent, hbytes⟩
      case appended =>
        exact commitPage_appended (s := appendByte s b) hinv.memory ((List.length_set ..).trans hbuffer) hfull hpage happended
      case inbox => rw [State.announcement, hagent, hident]; exact h.inbox
      case unsent => rw [State.unsent, hagent]; exact h.unsent
    · have hbeyond : s.params.numPages ≤ s.session.pageIndex := Nat.not_lt.mp hpage
      have hstop : (appendByte s b).commitPage = (appendByte s b).stopAtPageRange := if_pos hbeyond
      refine .inr ⟨by rw [hstop]; rfl, ?_⟩
      rw [hstop]
      obtain ⟨hlength, -⟩ := happended
      calc s.params.numPages * s.params.pageSize ≤ s.session.pageIndex * s.params.pageSize := Nat.mul_le_mul_right _ hbeyond
        _ ≤ (pulled ++ [b]).length := hlength ▸ Nat.le_add_right _ _
        _ ≤ image.length := by rw [← hbytes]; simp

/-! ### The final commit -/

/-- A legal page is the bytes written to it, then the fill value (R184). -/
theorem pageBuffer_eq (h : s.pageLegal) :
    s.session.pageBuffer
      = s.session.pageBuffer.take s.session.writeCursor ++ List.replicate (s.params.pageSize - s.session.writeCursor) 0xFF := by
  obtain ⟨hlength, hcursor, hfill⟩ := h
  have hdrop : s.session.pageBuffer.drop s.session.writeCursor = List.replicate (s.params.pageSize - s.session.writeCursor) 0xFF := by
    refine List.ext_getElem? fun i => ?_
    rw [List.getElem?_drop, List.getElem?_replicate]
    split
    case isTrue hi => exact hfill _ (Nat.le_add_right _ _) (by omega)
    case isFalse hi => exact List.getElem?_eq_none (by omega)
  rw [← hdrop, List.take_append_drop]

/-- An appended image ends in the page the receiver works on (R184). -/
theorem pagesOf_of_appended (h : s.appended m image) (hcursor : s.session.writeCursor < s.params.pageSize) :
    pagesOf image s.params = s.session.pageIndex + 1 := by
  obtain ⟨hlength, -⟩ := h
  rw [pagesOf, hlength, Nat.mul_comm, Nat.mul_add_div (Nat.zero_lt_of_lt hcursor), Nat.div_eq_of_lt hcursor]

/-- `BL_FINISH` (R168): the last page is committed, and the image is in FLASH; or there is no page left for it. -/
theorem Finished.finishTransfer (h : Finished image m s) (hinv : s.Inv) (hset : Setting image s) :
    Committed image m s.finishTransfer ∨ Overflowed image s.finishTransfer := by
  have hlegal := pageLegal_of_inv hinv hset.mode
  obtain ⟨hbuffer, hcursor, -⟩ := pageLegal_of_inv hinv hset.mode
  obtain ⟨hlength, -, htaken, -⟩ := h.appended
  by_cases hpage : s.session.pageIndex < s.params.numPages
  · have hpages := pagesOf_of_appended h.appended hcursor
    have hrunning : s.commitPage.phase ≠ .halted := by simp [UpdateReceiver.commitPage_phase hpage, h.phase]
    obtain ⟨hholds, helsewhere⟩ := commitPage_flash hinv.memory hbuffer hpage h.appended
    obtain ⟨-, -, hagent, hqueue, -, hparams⟩ := commitPage_rest hpage
    have hfill : pagesOf image s.params * s.params.pageSize - image.length = s.params.pageSize - s.session.writeCursor := by
      rw [hpages, hlength, Nat.succ_mul]
      omega
    have hbytes : image ++ List.replicate (pagesOf image s.params * s.params.pageSize - image.length) 0xFF
        = image.take (s.session.pageIndex * s.params.pageSize) ++ s.session.pageBuffer := by
      rw [pageBuffer_eq hlegal, htaken, ← List.append_assoc, List.take_append_drop, hfill]
    rw [UpdateReceiver.finishTransfer_of_running hrunning]
    refine .inl ⟨rfl, ?index, ?fits, ?inbox, hqueue.trans h.queue, ?holds, ?elsewhere⟩
    case index =>
      show s.commitPage.session.pageIndex = pagesOf image s.commitPage.params
      rw [hparams, hpages, FlashPager.commitPage_of_page hbuffer hpage]
    case fits =>
      show pagesOf image s.commitPage.params ≤ s.commitPage.params.numPages
      rw [hparams, hpages]
      exact hpage
    case inbox =>
      show s.commitPage.agent.inbox = []
      rw [hagent, h.inbox]
    case holds =>
      show s.commitPage.flashHolds (image ++
        List.replicate (pagesOf image s.commitPage.params * s.commitPage.params.pageSize - image.length) 0xFF)
      rw [hparams, hbytes]
      exact hholds
    case elsewhere =>
      show s.commitPage.flashElsewhere m (pagesOf image s.commitPage.params * s.commitPage.params.pageSize)
      rw [hparams, hpages]
      exact helsewhere
  · have hbeyond : s.params.numPages ≤ s.session.pageIndex := Nat.not_lt.mp hpage
    have hhalted := UpdateReceiver.commitPage_phase_beyond hbeyond
    rw [UpdateReceiver.finishTransfer_of_halted hhalted]
    refine .inr ⟨hhalted, ?_⟩
    rw [(commitPage_setting s).1, hlength]
    exact (Nat.mul_le_mul_right _ hbeyond).trans (Nat.le_add_right _ _)

/-! ## The agent's operations -/

/-- `AG_START` (R192) between the announcement and the first request. -/
theorem Pulling.startServing (h : Pulling image m .agIdle pulled chunk rest s) :
    Pulling image m .agServing pulled chunk rest s.startServing := by
  have hrest : image = rest := (if_pos h.agentPhase).symm.trans h.unsent
  refine ⟨h.phase, h.waiting, h.appended, rfl, AgentPhase.noConfusion, ?_, h.queue, h.chunkLeft, hrest, h.bytes⟩
  show s.agent.inbox.drop 1 = []
  rw [h.inbox, State.announcement, if_pos h.agentPhase]
  rfl

/-- `AG_START` (R192) after the first request. -/
theorem Requested.startServing (h : Requested image m .agIdle pulled rest s) :
    Requested image m .agServing pulled rest s.startServing := by
  have hrest : image = rest := (if_pos h.agentPhase).symm.trans h.unsent
  refine ⟨h.phase, h.waiting, h.appended, rfl, AgentPhase.noConfusion, ?_, h.queue, hrest, h.bytes⟩
  show s.agent.inbox.drop 1 = [wire 0x00A3#13 s.ident.hash [subMoreData]]
  rw [h.inbox, State.announcement, if_pos h.agentPhase]
  rfl

/-- The parameters' constraint on the agent's chunk (R7, R194). -/
theorem agentChunk_range {p : Params} (h : p.wf = true) : 1 ≤ p.agentChunk ∧ p.agentChunk + p.chunkCursorStart.val ≤ 7 := by
  simp only [Params.wf, Bool.and_eq_true, decide_eq_true_eq] at h
  tauto

/-- A serving agent has exactly the bytes after its position to send. -/
theorem Requested.drop_pos (h : Requested image m .agServing pulled rest s) : image.drop s.agent.pos = rest :=
  (if_neg (by simp [h.agentPhase])).symm.trans h.unsent

/-- `AG_SERVE` with bytes left (R193): the next chunk is on its way. -/
theorem Requested.serve_data (h : Requested image m .agServing pulled rest s) (hinv : s.Inv) (hset : Setting image s)
    (hmore : rest ≠ []) :
    Answered image m pulled (rest.take s.params.agentChunk) (rest.drop s.params.agentChunk) s.serveRequest := by
  obtain ⟨hmin, hmax⟩ := agentChunk_range hinv.params
  have hdrop := h.drop_pos
  have hpos : s.agent.pos < s.agent.image.length := by
    rw [hset.image]
    by_contra hnot
    exact hmore (hdrop ▸ List.drop_eq_nil_of_le (Nat.not_lt.mp hnot))
  have hchunk : s.nextChunk = rest.take s.params.agentChunk := by rw [State.nextChunk, hset.image, hdrop]
  have hlength := List.length_pos_iff.mpr hmore
  rw [Rows.serveRequest_of_bytes hpos, hchunk]
  refine ⟨h.phase, h.waiting, h.appended, h.agentPhase, ?inbox, ?notEmpty, ?fits, ?queue, ?unsent, ?bytes⟩
  case inbox =>
    have hannouncement : s.announcement = [] := if_neg (by simp [h.agentPhase])
    show s.agent.inbox.drop 1 = []
    rw [h.inbox, hannouncement]
    rfl
  case notEmpty => rw [List.length_take]; omega
  case fits =>
    show (rest.take s.params.agentChunk).length + s.params.chunkCursorStart.val ≤ 7
    rw [List.length_take]
    omega
  case queue =>
    show s.rxQueue ++ [_] = _
    rw [h.queue]
    rfl
  case unsent =>
    refine (if_neg (by simp [h.agentPhase])).trans ?_
    show image.drop (s.agent.pos + (rest.take s.params.agentChunk).length) = _
    rw [← List.drop_drop, hdrop]
    exact (congrArg (List.drop _) (List.take_append_drop s.params.agentChunk rest).symm).trans List.drop_left
  case bytes => rw [List.append_assoc, List.take_append_drop, h.bytes]

/-- `AG_SERVE` with no bytes left (R193): the end is on its way. -/
theorem Requested.serve_end (h : Requested image m .agServing pulled [] s) (hset : Setting image s) :
    Ended image m s.serveRequest := by
  have hdrop := h.drop_pos
  have hpos : s.agent.image.length ≤ s.agent.pos := by
    rw [hset.image]
    exact List.drop_eq_nil_iff.mp hdrop
  have hpulled : pulled = image := (List.append_nil pulled).symm.trans h.bytes
  rw [Rows.serveRequest_of_end hpos]
  refine ⟨h.phase, h.waiting, hpulled ▸ h.appended, rfl, ?inbox, ?queue⟩
  case inbox =>
    have hannouncement : s.announcement = [] := if_neg (by simp [h.agentPhase])
    show s.agent.inbox.drop 1 = []
    rw [h.inbox, hannouncement]
    rfl
  case queue =>
    show s.rxQueue ++ [_] = _
    rw [h.queue]
    rfl

/-! ## The turns of the node and of the agent -/

section NodeTurn

variable {t : State} (hmode : s.mode = .bootloader) (he : NodeEffect s t)
include hmode he

theorem nodeEffect_awaitingStart (hphase : s.phase = .awaitingStart) : t = s.announce := by
  cases he <;> simp_all

theorem nodeEffect_pulling (hphase : s.phase = .streaming) (hwaiting : s.waiting = false) :
    (s.chunkExhausted = true ∧ t = s.requestChunk) ∨ (s.chunkExhausted = false ∧ t = s.pullByte) := by
  cases he <;> simp_all

theorem nodeEffect_handoff (hphase : s.phase = .handoffToApplication) : t = s.handOff := by
  cases he <;> simp_all

theorem nodeEffect_finished (hphase : s.phase = .finished) : t = s.finishTransfer := by
  cases he <;> simp_all

variable (hphase : s.phase = .streaming) (hwaiting : s.waiting = true) (htimeout : s.env.timeoutExpired = false)
include hphase hwaiting htimeout

theorem nodeEffect_blocked (hq : s.rxQueue = []) : t = s := by
  cases he <;> simp_all [State.blTimeoutEnabled]

theorem nodeEffect_polls {w : WireFrame} (hq : s.rxQueue = [w]) : t = ({ s with rxQueue := [] } : State).pollFrame w := by
  cases he <;> simp_all [State.blTimeoutEnabled]

end NodeTurn

section AgentTurn

variable {t : State} (he : EventEffect s .agent t)
include he

theorem agentEffect_of_start (h : s.agStartEnabled = true) : t = s.startServing := by
  have hidle : s.agent.phase = .agIdle := of_decide_eq_true (Bool.and_eq_true_iff.mp h).1
  cases he with
  | agentStart => rfl
  | agentServe h' => simp [State.agServeEnabled, hidle] at h'
  | agentIgnores h' => simp [h] at h'

theorem agentEffect_of_serve (h : s.agServeEnabled = true) : t = s.serveRequest := by
  have hserving : s.agent.phase = .agServing := of_decide_eq_true (Bool.and_eq_true_iff.mp h).1
  cases he with
  | agentStart h' => simp [State.agStartEnabled, hserving] at h'
  | agentServe => rfl
  | agentIgnores _ h' => simp [h] at h'

/-- With nothing in its inbox the agent does nothing. -/
theorem agentEffect_of_nil (h : s.agent.inbox = []) : t = s := by
  cases he with
  | agentStart h' => simp [State.agStartEnabled, agentReceives_nil h] at h'
  | agentServe h' => simp [State.agServeEnabled, agentReceives_nil h] at h'
  | agentIgnores => exact agentTakes_nil h

end AgentTurn

/-- An idle agent that finds the announcement first in its inbox starts (R192). -/
theorem agStartEnabled_of_announcement {frames : List WireFrame} (hidle : s.agent.phase = .agIdle)
    (hinbox : s.agent.inbox = s.announcement ++ frames) : s.agStartEnabled = true := by
  rw [State.announcement, if_pos hidle] at hinbox
  exact Bool.and_eq_true_iff.mpr ⟨decide_eq_true hidle, (agentReceives_receiver hinbox _).trans rfl⟩

/-- A serving agent has no announcement before it. -/
theorem announcement_of_serving (h : s.agent.phase = .agServing) : s.announcement = [] := if_neg (by simp [h])

/-- A serving agent that finds the request first in its inbox serves it (R193). -/
theorem agServeEnabled_of_request {frames : List WireFrame} (hserving : s.agent.phase = .agServing)
    (hinbox : s.agent.inbox = s.announcement ++ wire 0x00A3#13 s.ident.hash [subMoreData] :: frames) : s.agServeEnabled = true := by
  rw [announcement_of_serving hserving] at hinbox
  exact Bool.and_eq_true_iff.mpr ⟨decide_eq_true hserving, (agentReceives_receiver hinbox _).trans rfl⟩

theorem idle_or_serving (h : a ≠ .agDone) : a = .agIdle ∨ a = .agServing := by
  cases a with
  | agIdle => exact .inl rfl
  | agServing => exact .inr rfl
  | agDone => exact absurd rfl h

/-- The node's turn leads from stage to stage, except at the handoff. -/
theorem Stage.node {t : State} (h : Stage image m s) (hinv : s.Inv) (hset : Setting image s)
    (hphase : s.phase ≠ .handoffToApplication) (he : NodeEffect s t) : Stage image m t := by
  cases h with
  | awaiting h =>
    obtain rfl := nodeEffect_awaitingStart hset.mode he h.phase
    exact .pulling (h.announce hinv hset)
  | @pulling a pulled chunk rest h =>
    have hexhausted := chunkExhausted_iff (chunkLegal_of_inv hinv hset.mode)
    rw [h.chunkLeft] at hexhausted
    cases chunk with
    | nil =>
      obtain ⟨-, rfl⟩ | ⟨hmore, -⟩ := nodeEffect_pulling hset.mode he h.phase h.waiting
      · exact .requested h.requestChunk
      · exact absurd (hexhausted.mpr rfl) (Bool.eq_false_iff.mp hmore)
    | cons b chunk =>
      obtain ⟨hnone, -⟩ | ⟨-, rfl⟩ := nodeEffect_pulling hset.mode he h.phase h.waiting
      · exact absurd (hexhausted.mp hnone) (List.cons_ne_nil b chunk)
      · exact (h.pullByte hinv hset).elim .pulling .overflowed
  | requested h =>
    obtain rfl := nodeEffect_blocked hset.mode he h.phase h.waiting hset.noTimeout h.queue
    exact .requested h
  | answered h =>
    obtain rfl := nodeEffect_polls hset.mode he h.phase h.waiting hset.noTimeout h.queue
    exact .pulling (h.pollFrame hinv hset)
  | ended h =>
    obtain rfl := nodeEffect_polls hset.mode he h.phase h.waiting hset.noTimeout h.queue
    exact .finished h.pollFrame
  | finished h =>
    obtain rfl := nodeEffect_finished hset.mode he h.phase
    exact (h.finishTransfer hinv hset).elim .committed .overflowed
  | committed h => exact absurd h.phase hphase
  | overflowed h => exact absurd he (Frames.not_nodeEffect_halted hset.mode h.phase)

/-- The agent's turn leads from stage to stage. -/
theorem Stage.agent {t : State} (h : Stage image m s) (hinv : s.Inv) (hset : Setting image s) (he : EventEffect s .agent t) :
    Stage image m t := by
  cases h with
  | awaiting h => obtain rfl := agentEffect_of_nil he h.inbox; exact .awaiting h
  | pulling h =>
    obtain rfl | rfl := idle_or_serving h.notDone
    · obtain rfl := agentEffect_of_start he
        (agStartEnabled_of_announcement h.agentPhase (h.inbox.trans (List.append_nil _).symm))
      exact .pulling h.startServing
    · obtain rfl := agentEffect_of_nil he (h.inbox.trans (announcement_of_serving h.agentPhase))
      exact .pulling h
  | @requested a pulled rest h =>
    obtain rfl | rfl := idle_or_serving h.notDone
    · obtain rfl := agentEffect_of_start he (agStartEnabled_of_announcement h.agentPhase h.inbox)
      exact .requested h.startServing
    · obtain rfl := agentEffect_of_serve he (agServeEnabled_of_request h.agentPhase h.inbox)
      by_cases hmore : rest = []
      · subst hmore
        exact .ended (h.serve_end hset)
      · exact .answered (h.serve_data hinv hset hmore)
  | answered h => obtain rfl := agentEffect_of_nil he h.inbox; exact .answered h
  | ended h => obtain rfl := agentEffect_of_nil he h.inbox; exact .ended h
  | finished h => obtain rfl := agentEffect_of_nil he h.inbox; exact .finished h
  | committed h => obtain rfl := agentEffect_of_nil he h.inbox; exact .committed h
  | overflowed h =>
    obtain ⟨-, hphase, -⟩ := Frames.eventEffect_frame he Event.noConfusion
    obtain ⟨hparams, -⟩ := eventEffect_setting he
    exact .overflowed ⟨hphase.trans h.phase, hparams ▸ h.tooLong⟩

/-! ## The setting -/

theorem commitPage_outside (s : State) :
    s.commitPage.env = s.env ∧ s.commitPage.agent.image = s.agent.image ∧ s.commitPage.ident = s.ident := by
  unfold State.commitPage
  split <;> exact ⟨rfl, rfl, rfl⟩

/-- The receiver's steps touch neither the timer nor the agent's image, and before the handoff not the identity. -/
theorem nodeEffect_outside {t : State} (he : NodeEffect s t) (hmode : s.mode = .bootloader) (hphase : s.phase ≠ .handoffToApplication) :
    t.env = s.env ∧ t.agent.image = s.agent.image ∧ t.ident = s.ident := by
  cases he
  case pull =>
    simp only [State.pullByte]
    split
    · exact commitPage_outside { s with session := _ }
    · exact ⟨rfl, rfl, rfl⟩
  case poll w rest _ _ _ _ _ =>
    rcases pollFrame_cases { s with rxQueue := rest } w with h | ⟨-, h⟩ | ⟨_, _, -, h⟩ | ⟨_, _, -, h⟩ <;> rw [h] <;>
      exact ⟨rfl, rfl, rfl⟩
  case finish =>
    simp only [State.finishTransfer]
    split <;> exact commitPage_outside s
  case handOff hp => exact absurd hp hphase
  case idle | announce | request | timeout | blocked => exact ⟨rfl, rfl, rfl⟩
  all_goals exact absurd (hmode.symm.trans ‹s.mode = .application›) Mode.noConfusion

theorem agentEffect_outside {t : State} (he : EventEffect s .agent t) :
    t.env = s.env ∧ t.agent.image = s.agent.image ∧ t.ident = s.ident := by
  cases he with
  | agentServe =>
    simp only [State.serveRequest]
    split <;> exact ⟨rfl, rfl, rfl⟩
  | _ => exact ⟨rfl, rfl, rfl⟩

theorem Setting.node {t : State} (h : Setting image s) (hphase : s.phase ≠ .handoffToApplication) (he : NodeEffect s t) :
    Setting image t := by
  obtain ⟨henv, himage, -⟩ := nodeEffect_outside he h.mode hphase
  obtain hmode | ⟨happ, -⟩ | ⟨-, hhandoff⟩ := Frames.nodeEffect_mode he
  · exact ⟨hmode.trans h.mode, henv ▸ h.noTimeout, himage.trans h.image⟩
  · exact absurd (happ.symm.trans h.mode) Mode.noConfusion
  · exact absurd hhandoff hphase

theorem Setting.agent {t : State} (h : Setting image s) (he : EventEffect s .agent t) : Setting image t := by
  obtain ⟨hmode, -, -⟩ := Frames.eventEffect_frame he Event.noConfusion
  obtain ⟨henv, himage, -⟩ := agentEffect_outside he
  exact ⟨hmode.trans h.mode, henv ▸ h.noTimeout, himage.trans h.image⟩

/-! ## Every step keeps the transfer -/

/-- Clearing the one-step outputs and taking the event touches nothing of a transfer. -/
theorem transferring_atTurn (h : s.transferring image m) : s.atTurn.transferring image m := h

theorem transferring_step {t : State} (hinv : s.Inv) (h : s.transferring image m) (hevent : s.nextEvent = .node ∨ s.nextEvent = .agent)
    (hnot : ¬ (s.nextEvent = .node ∧ s.phase = .handoffToApplication)) (hstep : step s = .next t) : t.transferring image m := by
  obtain ⟨hset, hstage⟩ := (transferring_iff _ _ _).mp (transferring_atTurn h)
  have hinv' : s.atTurn.Inv := inv_atTurn hinv
  obtain ⟨hnode, he⟩ | ⟨hother, he⟩ := step_next hstep
  · have hphase : s.atTurn.phase ≠ .handoffToApplication := fun hp => hnot ⟨hnode, hp⟩
    exact (transferring_iff _ _ _).mpr ⟨hset.node hphase he, hstage.node hinv' hset hphase he⟩
  · rw [hevent.resolve_left hother] at he
    exact (transferring_iff _ _ _).mpr ⟨hset.agent he, hstage.agent hinv' hset he⟩

/-- Settles O58: stage by stage, for the node's turn and for the agent's. -/
theorem stepKeepsTheTransfer : Obligations.StepKeepsTheTransfer := by
  unfold Obligations.StepKeepsTheTransfer
  exact fun image m s t hinv h hevent hnot hstep => transferring_step hinv h hevent hnot hstep

/-! ## Runs of a transfer -/

/-- The transfer is over: the application runs, and there is nothing for it or for the agent to do. -/
structure Over (s : State) : Prop where
  mode : s.mode = .application
  queue : s.rxQueue = []
  notPending : s.cfgPending = false
  notActive : s.cfgEmitActive = false
  inbox : s.agent.inbox = []

/-- At the handoff the image is committed. -/
theorem Stage.committed_of_handoff (h : Stage image m s) (hphase : s.phase = .handoffToApplication) : Committed image m s := by
  cases h with
  | committed h => exact h
  | awaiting h | pulling h | requested h | answered h | ended h | finished h | overflowed h =>
    exact absurd (h.phase.symm.trans hphase) Phase.noConfusion

theorem Over.atTurn (h : Over s) : Over s.atTurn := ⟨h.mode, h.queue, h.notPending, h.notActive, h.inbox⟩

theorem Over.step {t : State} (h : Over s) (hevent : s.nextEvent = .node ∨ s.nextEvent = .agent) (hstep : step s = .next t) : Over t := by
  obtain ⟨-, he⟩ | ⟨hother, he⟩ := step_next hstep
  · have hturn := h.atTurn
    cases he
    case restApplication => exact hturn
    case route w rest hm hq hw => exact absurd (hq.symm.trans hturn.queue) (List.cons_ne_nil _ _)
    case emit ha => exact absurd (ha.symm.trans hturn.notActive) Bool.noConfusion
    case drain hp => exact absurd (hp.symm.trans hturn.notPending) Bool.noConfusion
    all_goals exact absurd (hturn.mode.symm.trans ‹s.atTurn.mode = .bootloader›) Mode.noConfusion
  · rw [hevent.resolve_left hother] at he
    obtain rfl := agentEffect_of_nil he h.atTurn.inbox
    exact h.atTurn

/-- The handoff ends the transfer (R170). -/
theorem over_handOff (hq : s.rxQueue = []) (hi : s.agent.inbox = []) : Over s.handOff := ⟨rfl, hq, rfl, rfl, hi⟩

/-- Along a run of the node and the agent the transfer goes on, or it is over. -/
def Along (image : List Byte) (m : Memory) (s : State) : Prop := (s.Inv ∧ s.transferring image m) ∨ Over s

theorem Along.step {t : State} (h : Along image m s) (hevent : s.nextEvent = .node ∨ s.nextEvent = .agent) (hstep : step s = .next t) :
    Along image m t := by
  obtain ⟨hinv, htransfer⟩ | hover := h
  · by_cases hhandoff : s.nextEvent = .node ∧ s.phase = .handoffToApplication
    · obtain ⟨hnode, hphase⟩ := hhandoff
      obtain ⟨hset, hstage⟩ := (transferring_iff _ _ _).mp (transferring_atTurn htransfer)
      have hcommitted := hstage.committed_of_handoff hphase
      obtain ⟨-, he⟩ | ⟨hother, -⟩ := step_next hstep
      · obtain rfl := nodeEffect_handoff hset.mode he hphase
        exact .inr (over_handOff hcommitted.queue hcommitted.inbox)
      · exact absurd hnode hother
    · exact .inl ⟨Invariance.inv_step hinv hstep, transferring_step hinv htransfer hevent hhandoff hstep⟩
  · exact .inr (hover.step hevent hstep)

/-- The script's turns are the node's and the agent's, and so is the next event. -/
theorem nextEvent_of_script {n : Nat} (hscript : ∀ e ∈ s.env.inputs.take (n + 1), e = .node ∨ e = .agent) :
    s.nextEvent = .node ∨ s.nextEvent = .agent := by
  unfold State.nextEvent
  cases hin : s.env.inputs with
  | nil => exact .inl rfl
  | cons e es => exact hscript e (by simp [hin])

theorem Along.run {n : Nat} {t : State} (h : Along image m s) (hscript : ∀ e ∈ s.env.inputs.take n, e = .node ∨ e = .agent)
    (hrun : core.run n s = .next t) : Along image m t ∧ t.params = s.params := by
  induction n generalizing s with
  | zero =>
    cases hrun
    exact ⟨h, rfl⟩
  | succ n ih =>
    obtain ⟨u, hstep, hrest⟩ := run_split core hrun
    obtain ⟨hparams, hinputs⟩ := step_setting hstep
    have hscript' : ∀ e ∈ u.env.inputs.take n, e = .node ∨ e = .agent := by
      intro e he
      rw [hinputs, ← Nat.add_sub_cancel (n := n) (m := 1), ← List.drop_take] at he
      exact hscript e (List.mem_of_mem_drop he)
    obtain ⟨ht, hparams'⟩ := ih (h.step (nextEvent_of_script hscript) hstep) hscript' hrest
    exact ⟨ht, hparams'.trans hparams⟩

/-- A transfer about to begin is a transfer at its first stage, with the memory as it is. -/
theorem transferring_of_begins (h : s.transferBegins image) : s.Inv ∧ s.transferring image s.mem := by
  obtain ⟨hinv, hmode, hphase, hindex, hcursor, hqueue, htimeout, himage, hagent, hinbox⟩ := h
  exact ⟨hinv, (transferring_iff _ _ _).mpr ⟨⟨hmode, htimeout, himage⟩,
    .awaiting ⟨hphase, hagent, hinbox, hqueue, hindex, hcursor, fun _ _ => rfl⟩⟩⟩

/-- An image ends before its last page does (R185). -/
theorem length_lt_pages {p : Params} (h : 1 ≤ p.pageSize) : image.length < pagesOf image p * p.pageSize :=
  (Nat.div_lt_iff_lt_mul h).mp (Nat.lt_succ_self _)

/-- Settles O59: a run of the node and the agent that ends at the handoff ends in a transfer whose image is committed. -/
theorem finishedTransferLeavesTheImage : Obligations.FinishedTransferLeavesTheImage := by
  unfold Obligations.FinishedTransferLeavesTheImage
  intro image s t n hbegins hscript hlength hrun hmode hphase pages
  obtain ⟨halong, hparams⟩ := Along.run (.inl (transferring_of_begins hbegins)) hscript hrun
  obtain ⟨-, htransfer⟩ | hover := halong
  · obtain ⟨-, hstage⟩ := (transferring_iff _ _ _).mp htransfer
    obtain ⟨-, hindex, hfits, -, -, hholds, helsewhere⟩ := hstage.committed_of_handoff hphase
    rw [hparams] at hindex hfits
    have hpages : pagesOf image s.params = pages := rfl
    simp only [State.flashHolds, State.flashElsewhere, hparams, hpages] at hholds helsewhere
    have hlast : image.length < pages * s.params.pageSize := length_lt_pages (wf_page hbegins.1)
    have hholds' {k : Nat} (hk : k < pages * s.params.pageSize) := hholds k (by rw [List.length_append, List.length_replicate]; omega)
    refine ⟨hindex, hfits, fun k hk => ?image, fun k hk hk' => ?fill, helsewhere⟩
    case image => rw [hholds' (hk.trans hlast), List.getElem?_append_left hk]
    case fill => rw [hholds' hk', List.getElem?_append_right hk, List.getElem?_replicate, if_pos (Nat.sub_lt_sub_right hk hk')]
  · exact absurd (hover.mode.symm.trans hmode) Mode.noConfusion

/-! ## A schedule for an image that fits -/

/-- What a transfer carries along: the invariant, its setting, the parameters and the node's hash. -/
structure Carried (image : List Byte) (p : Params) (hash : Hash) (s : State) : Prop where
  inv : s.Inv
  setting : Setting image s
  params : s.params = p
  hash : s.ident.hash = hash

variable {p : Params} {hash : Hash}

theorem Carried.atTurn (h : Carried image p hash s) : Carried image p hash s.atTurn :=
  ⟨inv_atTurn h.inv, ⟨h.setting.mode, h.setting.noTimeout, h.setting.image⟩, h.params, h.hash⟩

theorem Carried.step {t : State} (h : Carried image p hash s) (hevent : s.nextEvent = .node ∨ s.nextEvent = .agent)
    (hphase : s.phase ≠ .handoffToApplication) (hstep : step s = .next t) : Carried image p hash t := by
  have hturn := h.atTurn
  obtain ⟨hparams, -⟩ := step_setting hstep
  obtain ⟨-, he⟩ | ⟨hother, he⟩ := step_next hstep
  · obtain ⟨-, -, hident⟩ := nodeEffect_outside he hturn.setting.mode hphase
    exact ⟨Invariance.inv_step h.inv hstep, hturn.setting.node hphase he, hparams.trans h.params, hident ▸ hturn.hash⟩
  · rw [hevent.resolve_left hother] at he
    obtain ⟨-, -, hident⟩ := agentEffect_outside he
    exact ⟨Invariance.inv_step h.inv hstep, hturn.setting.agent he, hparams.trans h.params, hident ▸ hturn.hash⟩

/-- These turns, of the node and the agent, lead a transfer from `P` to `Q`, and the node sends these frames. -/
structure Leads (image : List Byte) (p : Params) (hash : Hash) (P : State → Prop) (turns : List Event) (frames : List WireFrame)
    (Q : State → Prop) : Prop where
  schedule : ∀ e ∈ turns, e = .node ∨ e = .agent
  run : ∀ s, Carried image p hash s → P s → ∀ more, s.env.inputs = turns ++ more →
    ∃ t, core.run turns.length s = .next t ∧ t.env.inputs = more ∧ Carried image p hash t ∧ Q t
      ∧ t.out.trace = s.out.trace ++ frames

/-- A run of as many steps as two runs is one after the other. -/
theorem run_add (M : Host.Core) {n k : Nat} {s t : M.State} (h : M.run n s = .next t) : M.run (n + k) s = M.run k t := by
  induction n generalizing s with
  | zero =>
    cases h
    rw [Nat.zero_add]
  | succ n ih =>
    obtain ⟨u, hstep, hrest⟩ := run_split M h
    rw [Nat.succ_add, run_step M (n + k) hstep, ih hrest]

section Leads

variable {P Q R : State → Prop} {turns turns' : List Event} {frames frames' : List WireFrame}

theorem Leads.refl : Leads image p hash P [] [] P :=
  ⟨nofun, fun s hs hP _ hin => ⟨s, rfl, hin, hs, hP, (List.append_nil _).symm⟩⟩

theorem Leads.trans (h : Leads image p hash P turns frames Q) (h' : Leads image p hash Q turns' frames' R) :
    Leads image p hash P (turns ++ turns') (frames ++ frames') R := by
  refine ⟨List.forall_mem_append.mpr ⟨h.schedule, h'.schedule⟩, fun s hs hP more hin => ?_⟩
  obtain ⟨u, hrun, hin', hu, hQ, htrace⟩ := h.run s hs hP (turns' ++ more) (hin.trans (List.append_assoc ..))
  obtain ⟨t, hrun', hin'', ht, hR, htrace'⟩ := h'.run u hu hQ more hin'
  refine ⟨t, ?_, hin'', ht, hR, by rw [htrace', htrace, List.append_assoc]⟩
  rw [List.length_append, run_add core hrun, hrun']

/-- One turn, at the state from which its event has been taken. -/
theorem Leads.turn {e : Event} (he : e = .node ∨ e = .agent) (hphase : ∀ s, P s → s.phase ≠ .handoffToApplication)
    (hturn : ∀ s, P s → P s.atTurn)
    (h : ∀ s, Carried image p hash s → P s →
      ∃ t, (s.eventTurn e).outcome = .next t ∧ Q t ∧ t.out.trace = s.out.trace ++ frames) :
    Leads image p hash P [e] frames Q := by
  refine ⟨List.forall_mem_singleton.mpr he, fun s hs hP more hin => ?_⟩
  have hevent : s.nextEvent = e := by rw [State.nextEvent, hin]; rfl
  obtain ⟨t, houtcome, hQ, htrace⟩ := h s.atTurn hs.atTurn (hturn s hP)
  have hstep : step s = .next t := (Steps.step_of_event hevent).trans houtcome
  obtain ⟨-, hinputs⟩ := step_setting hstep
  exact ⟨t, run_step core 0 hstep, by rw [hinputs, hin]; rfl, hs.step (hevent ▸ he) (hphase s hP) hstep, hQ, htrace⟩

end Leads

/-! ### The turns -/

/-- The node's turn in the bootloader runs a row. -/
theorem outcome_node {t : State} {i : Instr} (hmode : s.mode = .bootloader) (hturn : s.bootloaderTurn = .run i s)
    (hexec : exec i s = .next t) : (s.eventTurn .node).outcome = .next t := by
  rw [State.eventTurn, Steps.nodeTurn_bootloader hmode, hturn]
  exact hexec

/-- The node's turn in a wait without a timeout polls the only frame. -/
theorem outcome_polls {w : WireFrame} (hset : Setting image s) (hphase : s.phase = .streaming) (hwaiting : s.waiting = true)
    (hq : s.rxQueue = [w]) (hw : w.wf = true) :
    (s.eventTurn .node).outcome = .next (({ s with rxQueue := [] } : State).pollFrame w) := by
  have hr : s.reception = .poll := (reception_poll_iff s).mpr ⟨hset.mode, hphase, hwaiting⟩
  have hnot : (s.blTimeoutEnabled && s.env.timeoutFirst) = false := by simp [State.blTimeoutEnabled, hset.noTimeout]
  rw [State.eventTurn, Steps.nodeTurn_bootloader hset.mode, Steps.bootloaderTurn_waiting hphase hwaiting,
    Steps.waitTurn_of_frame hq hnot, Steps.outcome_receiveTurn_poll hr hq hw, Rows.exec_blPoll hq hr]

theorem leads_announce : Leads image p hash (Awaiting m) [.node] [wire 0x00A3#13 hash [4]] (Pulling image m .agIdle [] [] image) := by
  refine .turn (.inl rfl) (fun s h => by simp [h.phase]) (fun s h => { h with }) fun s hs h => ⟨s.announce, ?_, ?_, ?_⟩
  · exact outcome_node hs.setting.mode (Steps.bootloaderTurn_awaitingStart h.phase) (Rows.exec_blAnnounce hs.setting.mode h.phase)
  · exact h.announce hs.inv hs.setting
  · rw [← hs.hash]
    exact congrArg (s.out.trace ++ [·]) (encodeFrame_receiverFrame _ _)

theorem leads_start :
    Leads image p hash (Pulling image m .agIdle pulled chunk rest) [.agent] [] (Pulling image m .agServing pulled chunk rest) := by
  refine .turn (.inr rfl) (fun s h => by simp [h.phase]) (fun s h => { h with }) fun s hs h => ⟨s.startServing, ?_, h.startServing, ?_⟩
  · have hstart := agStartEnabled_of_announcement h.agentPhase (h.inbox.trans (List.append_nil _).symm)
    rw [State.eventTurn, Steps.agentTurn_of_start hstart]
    exact Rows.whenEnabled_of_enabled (s := s) hstart
  · exact (List.append_nil _).symm

theorem leads_request :
    Leads image p hash (Pulling image m .agServing pulled [] rest) [.node] [wire 0x00A3#13 hash [5]]
      (Requested image m .agServing pulled rest) := by
  refine .turn (.inl rfl) (fun s h => by simp [h.phase]) (fun s h => { h with }) fun s hs h => ⟨s.requestChunk, ?_, h.requestChunk, ?_⟩
  · have hexhausted := (chunkExhausted_iff (chunkLegal_of_inv hs.inv hs.setting.mode)).mpr h.chunkLeft
    exact outcome_node hs.setting.mode (Steps.bootloaderTurn_request h.phase h.waiting hexhausted)
      (Rows.exec_blRequest hs.setting.mode h.phase h.waiting hexhausted)
  · rw [← hs.hash]
    exact congrArg (s.out.trace ++ [·]) (encodeFrame_receiverFrame _ _)

/-- The agent's turn with the request before it. -/
theorem outcome_serves (h : Requested image m .agServing pulled rest s) :
    (s.eventTurn .agent).outcome = .next s.serveRequest := by
  have hserve := agServeEnabled_of_request h.agentPhase h.inbox
  rw [State.eventTurn, Steps.agentTurn_of_serve hserve]
  exact Rows.whenEnabled_of_enabled (s := s) hserve

/-- The agent's frames are none of the node's. -/
theorem serveRequest_trace (s : State) : s.serveRequest.out.trace = s.out.trace ++ [] := by
  rw [List.append_nil]
  simp only [State.serveRequest]
  split <;> rfl

theorem leads_serve_data (hmore : rest ≠ []) :
    Leads image p hash (Requested image m .agServing pulled rest) [.agent] []
      (Answered image m pulled (rest.take p.agentChunk) (rest.drop p.agentChunk)) := by
  refine .turn (.inr rfl) (fun s h => by simp [h.phase]) (fun s h => { h with }) fun s hs h =>
    ⟨s.serveRequest, outcome_serves h, ?_, serveRequest_trace s⟩
  rw [← hs.params]
  exact h.serve_data hs.inv hs.setting hmore

theorem leads_serve_end :
    Leads image p hash (Requested image m .agServing pulled []) [.agent] [] (Ended image m) :=
  .turn (.inr rfl) (fun s h => by simp [h.phase]) (fun s h => { h with }) fun s hs h =>
    ⟨s.serveRequest, outcome_serves h, h.serve_end hs.setting, serveRequest_trace s⟩

/-- The transceiver of a state of the invariant holds frames. -/
theorem wf_of_queue {w : WireFrame} (hinv : s.Inv) (hq : s.rxQueue = [w]) : w.wf = true := by
  obtain ⟨-, -, hqueue, -, -⟩ := hinv.frames
  exact hqueue w (hq ▸ List.mem_singleton_self w)

theorem pollFrame_trace (s : State) (w : WireFrame) : (s.pollFrame w).out.trace = s.out.trace ++ [] := by
  rw [List.append_nil, (Frames.pollFrame_frame s w).2.2]

theorem leads_poll_data :
    Leads image p hash (Answered image m pulled chunk rest) [.node] [] (Pulling image m .agServing pulled chunk rest) :=
  .turn (.inl rfl) (fun s h => by simp [h.phase]) (fun s h => { h with }) fun s hs h =>
    ⟨_, outcome_polls hs.setting h.phase h.waiting h.queue (wf_of_queue hs.inv h.queue), h.pollFrame hs.inv hs.setting,
      pollFrame_trace { s with rxQueue := [] } _⟩

theorem leads_poll_end : Leads image p hash (Ended image m) [.node] [] (Finished image m) :=
  .turn (.inl rfl) (fun s h => by simp [h.phase]) (fun s h => { h with }) fun s hs h =>
    ⟨_, outcome_polls hs.setting h.phase h.waiting h.queue (wf_of_queue hs.inv h.queue), h.pollFrame,
      pollFrame_trace { s with rxQueue := [] } _⟩

/-- The image fits into the application's pages, with room for at least one byte of fill (R185). -/
def Fits (image : List Byte) (p : Params) : Prop := image.length / p.pageSize < p.numPages

/-- The receiver's step on an image that fits never overflows: it keeps the parameters. -/
theorem not_overflowed {t : State} (hfits : Fits image p) (hs : Carried image p hash s) (he : NodeEffect s t) : ¬ Overflowed image t := by
  obtain ⟨hparams, -⟩ := nodeEffect_setting he
  have hpage : 1 ≤ p.pageSize := hs.params ▸ wf_page hs.inv
  have hshort := (Nat.div_lt_iff_lt_mul hpage).mp hfits
  rw [← hs.params, ← hparams] at hshort
  exact fun hover => absurd hshort (Nat.not_lt.mpr hover.tooLong)

theorem pullByte_trace (s : State) : s.pullByte.out.trace = s.out.trace ++ [] := by
  rw [List.append_nil, (Frames.pullByte_frame s).2]

theorem leads_pull {b : Byte} (hfits : Fits image p) :
    Leads image p hash (Pulling image m .agServing pulled (b :: chunk) rest) [.node] []
      (Pulling image m .agServing (pulled ++ [b]) chunk rest) := by
  refine .turn (.inl rfl) (fun s h => by simp [h.phase]) (fun s h => { h with }) fun s hs h => ?_
  have hmore : s.chunkExhausted = false := Bool.eq_false_iff.mpr fun hx =>
    List.cons_ne_nil b chunk (h.chunkLeft.symm.trans (chunkLeft_exhausted (chunkLegal_of_inv hs.inv hs.setting.mode) hx))
  refine ⟨s.pullByte, ?_, ?_, pullByte_trace s⟩
  · exact outcome_node hs.setting.mode (Steps.bootloaderTurn_pull h.phase h.waiting hmore)
      (Rows.exec_blPull hs.setting.mode h.phase h.waiting hmore)
  · exact (h.pullByte hs.inv hs.setting).resolve_right
      (not_overflowed hfits hs (.pull hs.setting.mode h.phase h.waiting hmore))

theorem finishTransfer_trace (s : State) : s.finishTransfer.out.trace = s.out.trace ++ [] := by
  rw [List.append_nil, (Frames.finishTransfer_frame s).2]

theorem leads_finish (hfits : Fits image p) : Leads image p hash (Finished image m) [.node] [] (Committed image m) := by
  refine .turn (.inl rfl) (fun s h => by simp [h.phase]) (fun s h => { h with }) fun s hs h =>
    ⟨s.finishTransfer, ?_, ?_, finishTransfer_trace s⟩
  · exact outcome_node hs.setting.mode (Steps.bootloaderTurn_finished h.phase) (UpdateReceiver.exec_blFinish hs.setting.mode h.phase)
  · exact (h.finishTransfer hs.inv hs.setting).resolve_right (not_overflowed hfits hs (.finish hs.setting.mode h.phase))

/-- A chunk is pulled byte by byte. -/
theorem leads_pulls (hfits : Fits image p) :
    Leads image p hash (Pulling image m .agServing pulled chunk rest) (List.replicate chunk.length .node) []
      (Pulling image m .agServing (pulled ++ chunk) [] rest) := by
  induction chunk generalizing pulled with
  | nil =>
    rw [List.append_nil]
    exact .refl
  | cons b chunk ih =>
    have hrest := ih (pulled := pulled ++ [b])
    rw [List.append_assoc, List.singleton_append] at hrest
    exact (leads_pull hfits).trans hrest

/-- A round of the stream: request, data frame, and the pulls of its bytes. -/
theorem leads_round (hfits : Fits image p) (hmore : rest ≠ []) : ∃ turns,
    Leads image p hash (Pulling image m .agServing pulled [] rest) turns [wire 0x00A3#13 hash [5]]
      (Pulling image m .agServing (pulled ++ rest.take p.agentChunk) [] (rest.drop p.agentChunk)) :=
  ⟨_, leads_request.trans ((leads_serve_data hmore).trans (leads_poll_data.trans (leads_pulls hfits)))⟩

/-- The number of data frames for `n` bytes: one for every `AGENT_CHUNK` bytes begun (44_update_receiver.md section 7). -/
def dataFrames (p : Params) (n : Nat) : Nat := (n + p.agentChunk - 1) / p.agentChunk

theorem dataFrames_zero (hp : 1 ≤ p.agentChunk) : dataFrames p 0 = 0 := by
  rw [dataFrames, Nat.zero_add]
  exact Nat.div_eq_of_lt (by omega)

theorem dataFrames_of_pos {n : Nat} (hp : 1 ≤ p.agentChunk) (hn : 0 < n) : dataFrames p n = dataFrames p (n - p.agentChunk) + 1 := by
  have hstep : dataFrames p n = (n - 1) / p.agentChunk + 1 := by
    rw [dataFrames, show n + p.agentChunk - 1 = n - 1 + p.agentChunk by omega, Nat.add_div_right _ hp]
  rw [hstep]
  by_cases hlast : n ≤ p.agentChunk
  · rw [Nat.sub_eq_zero_of_le hlast, dataFrames_zero hp, Nat.div_eq_of_lt (by omega)]
  · rw [dataFrames, show n - p.agentChunk + p.agentChunk - 1 = n - 1 by omega]

/-- The stream, round by round: one request for every data frame. -/
theorem leads_stream (hfits : Fits image p) (hp : 1 ≤ p.agentChunk) (pulled rest : List Byte) : ∃ turns,
    Leads image p hash (Pulling image m .agServing pulled [] rest) turns
      (List.replicate (dataFrames p rest.length) (wire 0x00A3#13 hash [5])) (Pulling image m .agServing (pulled ++ rest) [] []) := by
  by_cases hmore : rest = []
  · subst hmore
    rw [List.length_nil, dataFrames_zero hp, List.append_nil]
    exact ⟨[], .refl⟩
  · have hpos := List.length_pos_iff.mpr hmore
    obtain ⟨turns, hround⟩ := leads_round (pulled := pulled) (m := m) (hash := hash) hfits hmore
    obtain ⟨turns', hstream⟩ := leads_stream hfits hp (pulled ++ rest.take p.agentChunk) (rest.drop p.agentChunk)
    rw [List.append_assoc, List.take_append_drop, List.length_drop] at hstream
    refine ⟨turns ++ turns', ?_⟩
    rw [dataFrames_of_pos hp hpos]
    exact hround.trans hstream
termination_by rest.length
decreasing_by
  rw [List.length_drop]
  omega

/-- A whole transfer: the announcement, the stream, the request that the end answers, and the final commit. -/
theorem leads_transfer (hfits : Fits image p) (hp : 1 ≤ p.agentChunk) : ∃ turns,
    Leads image p hash (Awaiting m) turns
      (wire 0x00A3#13 hash [4] :: List.replicate (dataFrames p image.length + 1) (wire 0x00A3#13 hash [5])) (Committed image m) := by
  obtain ⟨turns, hstream⟩ := leads_stream (m := m) (hash := hash) hfits hp [] image
  have hend := (leads_request (image := image) (m := m) (pulled := [] ++ image) (rest := [])).trans
    (leads_serve_end.trans (leads_poll_end.trans (leads_finish (hash := hash) hfits)))
  have hall := leads_announce.trans (leads_start.trans (hstream.trans hend))
  rw [List.replicate_succ']
  exact ⟨_, hall⟩

/-- Settles O60: the schedule's turns, from the state with this script. -/
theorem fittingImageReachesTheHandoff : Obligations.FittingImageReachesTheHandoff := by
  unfold Obligations.FittingImageReachesTheHandoff
  intro image s hbegins hfits
  obtain ⟨hinv, hmode, hphase, hindex, hcursor, hqueue, htimeout, himage, hagent, hinbox⟩ := hbegins
  obtain ⟨hchunk, -⟩ := agentChunk_range hinv.params
  obtain ⟨turns, hleads⟩ := leads_transfer (m := s.mem) (hash := s.ident.hash) hfits hchunk
  obtain ⟨t, hrun, -, ht, hcommitted, htrace⟩ := hleads.run { s with env := { s.env with inputs := turns } }
    ⟨Invariance.inv_env hinv _, ⟨hmode, htimeout, himage⟩, rfl, rfl⟩ ⟨hphase, hagent, hinbox, hqueue, hindex, hcursor, fun _ _ => rfl⟩
    [] (List.append_nil _).symm
  exact ⟨turns, t, hleads.schedule, hrun, ht.setting.mode, hcommitted.phase, htrace⟩

end Sys2Proof.Proofs.Transfer
